-- ==== Sys2Proof/Word.lean ====
section
/-! DEFINITION. The word types of the FCB: its 32-bit registers and command words, the bytes of a byte stream, and
bit-strings. -/
namespace Sys2Proof

/-- A register or command word: 32 bits (10_state.md R102, 30_encoding.md R300). -/
abbrev Word := BitVec 32

/-- A byte of a byte stream (00_scope.md R9). -/
abbrev Byte := BitVec 8

/-- A bit-string, its first bit (the most significant one, the first on the wire) at the head
(00_scope.md section 5). -/
abbrev Bits := List Bool

end Sys2Proof
end

