-- ==== Sys2Proof/Machine/Bits.lean ====
section
/-! DEFINITION. Bit-strings and numbers (00_scope.md section 5), and the byte orders of the interface
(00_scope.md R9, 20_memory.md R203). -/
namespace Sys2Proof

/-- `val(s)`: the unsigned value of a bit-string read MSB-first (00_scope.md section 5). -/
def val (s : Bits) : Nat := s.foldl (fun acc b => 2 * acc + b.toNat) 0

/-- `bits_N(v)`: the N-bit string of `v`, its most significant bit first (00_scope.md section 5, R8). -/
def bitsOf : Nat → Nat → Bits
  | 0, _ => []
  | n + 1, v => v.testBit n :: bitsOf n v

/-- `0^k` (00_scope.md section 5). -/
def zeros (k : Nat) : Bits := List.replicate k false

/-- `s[a..b)` (00_scope.md section 5). -/
def slice (s : Bits) (a b : Nat) : Bits := (s.drop a).take (b - a)

/-- `s XOR t` for bit-strings of equal length (00_scope.md section 5). -/
def xorBits (s t : Bits) : Bits := List.zipWith xor s t

/-- The bytes of a bit-string whose length is `8 * n`, by the inverse of `bytesToBits` (00_scope.md R9,
20_memory.md R216). -/
def packBytes : Nat → Bits → List Byte
  | 0, _ => []
  | n + 1, s => BitVec.ofNat 8 (val (s.take 8)) :: packBytes n (s.drop 8)

/-- The four stream bytes of a buffer word, in stream order: byte `m` is bits `[31-8m : 24-8m]`
(20_memory.md R203). -/
def wordBytes (w : Word) : List Byte :=
  [w.extractLsb' 24 8, w.extractLsb' 16 8, w.extractLsb' 8 8, w.extractLsb' 0 8]

/-- The buffer word of four stream bytes (20_memory.md R203). -/
def wordOfBytes (b0 b1 b2 b3 : Byte) : Word := b0 ++ b1 ++ b2 ++ b3

end Sys2Proof
end

