-- ==== Sys2Proof/Syntax.lean ====
section
/-! DEFINITION. What the FCB is told: the 17 commands (30_encoding.md R304), the schemes they name, the buffers, the
registers of the window by name, and the host's accesses. -/
namespace Sys2Proof

/-- The five redundancy schemes (00_scope.md R2, 30_encoding.md R310). -/
inductive Scheme where
  | checksum
  | crc8
  | crc10
  | crc16
  | crc32
  deriving DecidableEq, Repr

/-- A decoded 7-bit tag: a known scheme, or the unknown value itself, kept (30_encoding.md R311). -/
inductive TagValue where
  | known (scheme : Scheme)
  | unknown (raw : BitVec 7)
  deriving DecidableEq, Repr

/-- The command set, one constructor for each row of the opcode table (30_encoding.md R304). The tag of `hpack` and
`segStart` is the TAG field of the command word, any 7-bit value. -/
inductive Instr where
  | nop
  | clr
  | genCsum
  | genCrc8
  | genCrc10
  | genCrc16
  | genCrc32
  | chkCsum
  | chkCrc8
  | chkCrc10
  | chkCrc16
  | chkCrc32
  | hpack (tag : BitVec 7)
  | hunpack
  | segStart (tag : BitVec 7)
  | segNext
  | validate
  deriving DecidableEq, Repr

/-- The four bit buffers (10_state.md R131). -/
inductive Buffer where
  | pay
  | dat
  | tx
  | rx
  deriving DecidableEq, Repr

/-- The named registers of the window (10_state.md R102). -/
inductive Reg where
  | cmd | status | frameSize | srcIp | srcPort | dstIp | dstPort | hdrCtl
  | codeLo | codeHi | segChunk | segPos | segCount | segCfg
  | bufSel | bufIdx | bufData | payLen | datLen | txLen | rxbLen
  | rxfSrcIp | rxfSrcPort | rxfDstIp | rxfDstPort | rxfCtl | rxfRegion | rxfCodeLo | rxfCodeHi
  deriving DecidableEq, Repr

/-- What a host access does: read, or write a value (20_memory.md R204). -/
inductive HostOp where
  | read
  | write (value : Word)
  deriving DecidableEq, Repr

/-- One host access to the window: the byte offset it reaches (20_memory.md R200), how many bytes wide it is, and
what it does. Accesses that R204 does not permit can be written down; WellFormed.lean tells them apart. -/
structure HostAccess where
  off   : BitVec 8
  bytes : Nat
  op    : HostOp
  deriving DecidableEq, Repr

/-- What reaches the FCB from outside: a host access, or the platform's reset (00_scope.md R4,
70_reset_and_hazards.md R803). -/
inductive BusEvent where
  | access (a : HostAccess)
  | reset
  deriving DecidableEq, Repr

end Sys2Proof
end

