-- ==== Sys2Proof/Config.lean ====
section
/-! DEFINITION. The OPEN parameters of the FCB (00_scope.md R5) and the one free value of the model. Each is an
opaque constant with no body, so no proof can see a value: a theorem of the model holds for every platform. The
parameters are built so that every value of the opaque part gives a valid configuration and every valid
configuration is given by one (00_scope.md R6). -/
namespace Sys2Proof.Config

/-- POLY_CRC10 without its leading 1: OPEN (00_scope.md R5, 41_crc.md R450). Log 3. -/
opaque polyCrc10Tail : BitVec 10

/-- POLY_CRC16 without its leading 1: OPEN (00_scope.md R5, 41_crc.md R450). Log 3. -/
opaque polyCrc16Tail : BitVec 16

/-- POLY_CRC32 without its leading 1: OPEN (00_scope.md R5, 41_crc.md R450). Log 3. -/
opaque polyCrc32Tail : BitVec 34

/-- How many words PAY holds beyond the least capacity of 65536 bits: OPEN (00_scope.md R5 and section 4). Log 4. -/
opaque payExtraWords : Fin 134215680

/-- The window's place, in units of 256 bytes: OPEN (20_memory.md R201). Log 2. -/
opaque blockPage : Nat

/-- FREE VALUE: what byte `i` of a buffer that nothing wrote since reset number `epoch` reads as, when the HOST
reads it (70_reset_and_hazards.md R801, 93_implementation_defined.md "unwritten buffer words read by the host").
Log 7. -/
opaque unwrittenByte : (epoch : Nat) → Buffer → (i : Nat) → Byte

/-- POLY_CRC10: 11 bits, the first one 1 (41_crc.md R450). -/
def polyCrc10 : Bits := true :: bitsOf 10 polyCrc10Tail.toNat

/-- POLY_CRC16: 17 bits, the first one 1 (41_crc.md R450). -/
def polyCrc16 : Bits := true :: bitsOf 16 polyCrc16Tail.toNat

/-- POLY_CRC32: 35 bits, the first one 1 (41_crc.md R450). -/
def polyCrc32 : Bits := true :: bitsOf 34 polyCrc32Tail.toNat

/-- The words of PAY (10_state.md R132: capacity / 32). -/
def payCapWords : Nat := payExtraWords.val + 2048

/-- BLOCK_BASE (20_memory.md R201). -/
def blockBase : Nat := 256 * blockPage

/-- The OPEN parameters as one record, so that their validity can be checked (00_scope.md R5, R6). -/
structure Params where
  polyCrc10  : Bits
  polyCrc16  : Bits
  polyCrc32  : Bits
  payCapBits : Nat
  blockBase  : Nat
  deriving DecidableEq, Repr

/-- The parameters of this machine. -/
def params : Params :=
  { polyCrc10 := polyCrc10, polyCrc16 := polyCrc16, polyCrc32 := polyCrc32,
    payCapBits := payCapWords * 32, blockBase := blockBase }

end Sys2Proof.Config
end

