-- ==== Sys2Proof/Machine/Memory.lean ====
section
/-! DEFINITION. The contents of a bit buffer as plain data: the bytes written since reset, in one canonical form
(10_state.md R131, R132, R133; 20_memory.md R203). A byte that is not listed has not been written. -/
namespace Sys2Proof.Machine

/-- The written bytes of a buffer, by byte index: byte `i` is the buffer's bits `8i .. 8i+7` (20_memory.md R203). -/
abbrev Memory := List Host.Cell

/-- The canonical form: byte indexes strictly rising. No entry equals what an unlisted byte reads as, because an
unlisted byte has no value. -/
def Memory.wf : Memory → Bool
  | [] => true
  | [_] => true
  | c :: d :: m => decide (c.1 < d.1) && Memory.wf (d :: m)

/-- Byte `i`, if it has been written. -/
def Memory.byte? : Memory → Nat → Option Byte
  | [], _ => none
  | c :: m, i => if c.1 = i then some c.2 else Memory.byte? m i

/-- Write byte `i`, keeping the canonical form. -/
def Memory.store : Memory → Nat → Byte → Memory
  | [], i, v => [(i, v)]
  | c :: m, i, v =>
    if i < c.1 then (i, v) :: c :: m
    else if c.1 = i then (i, v) :: m
    else c :: Memory.store m i v

/-- Write successive bytes from byte `i` on. -/
def Memory.storeBytes : Memory → Nat → List Byte → Memory
  | m, _, [] => m
  | m, i, v :: vs => Memory.storeBytes (Memory.store m i v) (i + 1) vs

/-- Write word `k`, its four bytes in stream order (10_state.md R124, R132; 20_memory.md R203). -/
def Memory.storeWord (m : Memory) (k : Nat) (w : Word) : Memory := Memory.storeBytes m (4 * k) (wordBytes w)

/-- Word `k`, an unwritten byte of it taken from `d` (10_state.md R124, R132). -/
def Memory.wordD (m : Memory) (d : Nat → Byte) (k : Nat) : Word :=
  let at? := fun i => (Memory.byte? m i).getD (d i)
  wordOfBytes (at? (4 * k)) (at? (4 * k + 1)) (at? (4 * k + 2)) (at? (4 * k + 3))

/-- Bit `j` of the buffer, if it has been written: bit `7 - j mod 8` of byte `j div 8`, that is bit
`31 - j mod 32` of word `j div 32` (10_state.md R132). -/
def Memory.bit? (m : Memory) (j : Nat) : Option Bool := (Memory.byte? m (j / 8)).map (fun b => b.getMsbD (j % 8))

/-- `BufRead(B, j, n)`: bits `j .. j+n-1`, or nothing when one of them has not been written
(00_scope.md section 5, 40_control.md R405). -/
def Memory.readBits (m : Memory) : (j n : Nat) → Option Bits
  | _, 0 => some []
  | j, n + 1 =>
    match Memory.bit? m j, Memory.readBits m (j + 1) n with
    | some b, some bs => some (b :: bs)
    | _, _ => none

/-- `BufWrite(B, 0, s)` for a bit-string of whole words (00_scope.md section 5, 20_memory.md R208). -/
def Memory.storeBits (m : Memory) (s : Bits) : Memory := Memory.storeBytes m 0 (packBytes (s.length / 8) s)

end Sys2Proof.Machine
end

