-- ==== Sys2Proof/Machine/State.lean ====
section
/-! DEFINITION. The state of the FCB (10_state.md), its reset value (70_reset_and_hazards.md R800, R801), and the
reasons a step can stop. -/
namespace Sys2Proof.Machine

/-- The error codes (60_exceptions.md R701). Code 7 is reserved and never produced, so it has no constructor. -/
inductive ErrorCode where
  | none
  | unsupportedScheme
  | truncatedFrame
  | frameTooSmall
  | illegalCommand
  | sequence
  | length
  deriving DecidableEq, Repr

/-- The outcomes of a check (10_state.md R113, 45_validator.md R650). -/
inductive CheckResult where
  | none
  | valid
  | invalid
  | undetermined
  deriving DecidableEq, Repr

/-- STATUS (10_state.md R110). Its reserved bits read 0 and are not stored. -/
structure Status where
  err       : ErrorCode
  sticky    : Bool
  result    : CheckResult
  segActive : Bool
  segDone   : Bool
  last      : Bool
  deriving DecidableEq, Repr

/-- The latched copies SEG.START takes (10_state.md R120). SEG_CHUNK and SEG_CFG are views of them
(10_state.md R116, R119; log 10). -/
structure Latches where
  tag     : BitVec 7
  r       : BitVec 6
  fsize   : BitVec 13
  chunk   : BitVec 16
  payLen  : Word
  srcIp   : Word
  srcPort : BitVec 16
  dstIp   : Word
  dstPort : BitVec 16
  deriving DecidableEq, Repr

/-- The receive-side field registers (10_state.md R127 to R130). `len`, `last`, `known`, `lenErr` and `tag` are the
fields of RXF_CTL; `code` is RXF_CODE_HI:RXF_CODE_LO. -/
structure RxFields where
  srcIp   : Word
  srcPort : BitVec 16
  dstIp   : Word
  dstPort : BitVec 16
  len     : BitVec 16
  last    : Bool
  known   : Bool
  lenErr  : Bool
  tag     : BitVec 7
  region  : Word
  code    : BitVec 64
  deriving DecidableEq, Repr

/-- The FCB's state (10_state.md R100). A register is stored at the width of its implemented bits, since its other
bits read 0 and ignore writes (10_state.md R134; log 11). `code` is CODE_HI:CODE_LO (R115). The last three fields are
the model's own: the accesses not yet served (log 1), the value the last served access returned (log 16), and the
number of resets served (log 7). -/
structure State where
  cmd       : Word
  status    : Status
  frameSize : BitVec 13
  srcIp     : Word
  srcPort   : BitVec 16
  dstIp     : Word
  dstPort   : BitVec 16
  hdrCtl    : BitVec 17
  code      : BitVec 64
  latch     : Latches
  segPos    : Word
  segCount  : Word
  bufSel    : BitVec 2
  bufIdx    : Word
  payLen    : Word
  datLen    : Word
  txLen     : Word
  rxbLen    : Word
  rxf       : RxFields
  pay       : Memory
  dat       : Memory
  tx        : Memory
  rx        : Memory
  pending   : List BusEvent
  reply     : Option Word
  epoch     : Nat
  deriving DecidableEq, Repr

/-- STATUS after reset: 0 (70_reset_and_hazards.md R800). -/
def Status.reset : Status :=
  { err := .none, sticky := false, result := .none, segActive := false, segDone := false, last := false }

/-- The latches after reset: 0 (70_reset_and_hazards.md R800). -/
def Latches.reset : Latches :=
  { tag := 0, r := 0, fsize := 0, chunk := 0, payLen := 0, srcIp := 0, srcPort := 0, dstIp := 0, dstPort := 0 }

/-- The RXF registers after reset: 0 (70_reset_and_hazards.md R800). -/
def RxFields.reset : RxFields :=
  { srcIp := 0, srcPort := 0, dstIp := 0, dstPort := 0, len := 0, last := false, known := false, lenErr := false,
    tag := 0, region := 0, code := 0 }

/-- The FCB right after its first reset (70_reset_and_hazards.md R800, R801): every register and latch 0, every
buffer unwritten; nothing pending, no reply, no further reset served (log 1, log 16, log 7). -/
def State.reset : State :=
  { cmd := 0, status := Status.reset, frameSize := 0, srcIp := 0, srcPort := 0, dstIp := 0, dstPort := 0,
    hdrCtl := 0, code := 0, latch := Latches.reset, segPos := 0, segCount := 0, bufSel := 0, bufIdx := 0,
    payLen := 0, datLen := 0, txLen := 0, rxbLen := 0, rxf := RxFields.reset, pay := [], dat := [], tx := [],
    rx := [], pending := [], reply := none, epoch := 0 }

/-- Why the machine stops. -/
inductive Fault where
  /-- A command consumed a bit of the buffer, below its length, that the host has not written since reset
  (40_control.md R405). Raised by GEN.*, CHK.*, HUNPACK, VALIDATE and SEG.NEXT. Safe: the hardware goes on with
  whatever the storage holds, and the model proves nothing about that. -/
  | unwrittenBits (b : Buffer)
  /-- SEG.NEXT found an unknown tag latched, in an active segmentation. SEG.START latches known tags only
  (44_segmenter.md R605), so no run raises it (log 14). Safe. -/
  | latchedTagUnknown
  deriving DecidableEq, Repr

/-- Why the machine gives no meaning. -/
inductive Refusal where
  /-- A command the model has no meaning for. Raised by exec's refused arms only. Safe. -/
  | notModelled (mnemonic : String)
  /-- A host access that is not 32 bits wide: outside the interface (20_memory.md R204). Raised by the host port.
  Safe. -/
  | accessWidth
  /-- A host access at an offset that is not a multiple of 4: outside the interface (20_memory.md R204). Raised by
  the host port. Safe. -/
  | misalignedAccess
  deriving DecidableEq, Repr

/-- How a command or a step ends. -/
abbrev Result := Host.Outcome State Fault Refusal

end Sys2Proof.Machine
end

