-- ==== Sys2Proof/Machine/Flags.lean ====
section
/-! DEFINITION. The flags (10_state.md R135): their codes, the register views that show them, and the status updates
the commands share. -/
namespace Sys2Proof.Machine

/-- The number of an error code (60_exceptions.md R701). -/
def ErrorCode.code : ErrorCode → BitVec 3
  | .none => 0
  | .unsupportedScheme => 1
  | .truncatedFrame => 2
  | .frameTooSmall => 3
  | .illegalCommand => 4
  | .sequence => 5
  | .length => 6

/-- The number of an outcome (10_state.md R110, 45_validator.md R650). -/
def CheckResult.code : CheckResult → BitVec 2
  | .none => 0
  | .valid => 1
  | .invalid => 2
  | .undetermined => 3

/-- The outcome of a check that ran: VALID or INVALID (10_state.md R113). -/
def CheckResult.ofCheck (ok : Bool) : CheckResult := if ok then .valid else .invalid

/-- STATUS as the host reads it (10_state.md R110). -/
def Status.word (f : Status) : Word :=
  (0#21 ++ BitVec.ofBool f.last ++ BitVec.ofBool f.segDone ++ BitVec.ofBool f.segActive ++ 0#2 ++ f.result.code
    ++ BitVec.ofBool f.sticky ++ f.err.code : BitVec (21 + 1 + 1 + 1 + 2 + 2 + 1 + 3))

/-- RXF_CTL as the host reads it (10_state.md R128). -/
def RxFields.ctlWord (f : RxFields) : Word :=
  (0#1 ++ f.tag ++ 0#5 ++ BitVec.ofBool f.lenErr ++ BitVec.ofBool f.known ++ BitVec.ofBool f.last ++ f.len
    : BitVec (1 + 7 + 5 + 1 + 1 + 1 + 16))

/-- SEG_CFG as the host reads it (10_state.md R119). -/
def Latches.cfgWord (l : Latches) : Word :=
  (0#3 ++ l.fsize ++ 0#2 ++ l.r ++ 0#1 ++ l.tag : BitVec (3 + 13 + 2 + 6 + 1 + 7))

/-- The status of a command that succeeds and writes no other flag: ERR ← 0 (10_state.md R111, 40_control.md
R403). -/
def Status.succeed (f : Status) : Status := { f with err := .none }

/-- The status CLR leaves (40_control.md R421). -/
def Status.clear (f : Status) : Status := { f with err := .none, sticky := false, result := .none }

/-- The status of a check that ran: RESULT written, ERR ← 0 (10_state.md R113). -/
def Status.checked (r : CheckResult) (f : Status) : Status := { f with result := r, err := .none }

/-- The status a successful SEG.START leaves (10_state.md R114, 44_segmenter.md R605). -/
def Status.segStarted (f : Status) : Status :=
  { f with segActive := true, segDone := false, last := false, err := .none }

/-- The status a successful SEG.NEXT leaves, `last` being the emitted frame's isLast (10_state.md R114,
44_segmenter.md R610). -/
def Status.frameEmitted (last : Bool) (f : Status) : Status :=
  { f with last := last, segActive := f.segActive && !last, segDone := f.segDone || last, err := .none }

/-- The status writes of an error: ERR ← code, STICKY ← 1, and RESULT ← NONE when the word's OP is 0x3 or 0x8
(`isCheck`) and the code is not 4 (60_exceptions.md R703). -/
def Status.raise (isCheck : Bool) (code : ErrorCode) (f : Status) : Status :=
  { f with
    err := code
    sticky := true
    result := if isCheck && code != .illegalCommand then .none else f.result }

end Sys2Proof.Machine
end

