-- ==== Sys2Proof/Machine/Ops.lean ====
section
/-! DEFINITION. The named operations over registers and buffers that the commands and the host port share, and the
one way a command raises an error. -/
namespace Sys2Proof.Machine

/-- The contents of a buffer (10_state.md R131). -/
def State.buf (s : State) : Buffer → Memory
  | .pay => s.pay
  | .dat => s.dat
  | .tx => s.tx
  | .rx => s.rx

/-- Replace the contents of a buffer. -/
def State.setBuf (s : State) (b : Buffer) (m : Memory) : State :=
  match b with
  | .pay => { s with pay := m }
  | .dat => { s with dat := m }
  | .tx => { s with tx := m }
  | .rx => { s with rx := m }

/-- The length register of a buffer (10_state.md R125, R126). -/
def State.len (s : State) : Buffer → Word
  | .pay => s.payLen
  | .dat => s.datLen
  | .tx => s.txLen
  | .rx => s.rxbLen

/-- The words of a buffer (10_state.md R131, R132): 65536 bits, but for PAY's OPEN capacity. -/
def capWords : Buffer → Nat
  | .pay => Config.payCapWords
  | .dat => 2048
  | .tx => 2048
  | .rx => 2048

/-- The capacity of a buffer in bits (10_state.md R131). -/
def capBits (b : Buffer) : Nat := capWords b * 32

/-- The buffer a BUF_SEL value selects (10_state.md R122). -/
def bufferOfSel (sel : BitVec 2) : Buffer :=
  match sel.toNat with
  | 0 => .pay
  | 1 => .dat
  | 2 => .tx
  | _ => .rx

/-- Write STATUS. -/
def State.setStatus (s : State) (f : Status) : State := { s with status := f }

/-- Write CODE_HI:CODE_LO with the right-aligned value of a code (10_state.md R115). -/
def State.setCode (s : State) (v : Nat) : State := { s with code := BitVec.ofNat 64 v }

/-- Write the RXF registers (43_header.md R560). -/
def State.setRxf (s : State) (u : RxFields) : State := { s with rxf := u }

/-- Write a bit-string of whole words to TX from bit 0, and TX_LEN (20_memory.md R208, 10_state.md R126). -/
def State.putTx (s : State) (content : Bits) (len : Nat) : State :=
  { s with tx := s.tx.storeBits content, txLen := BitVec.ofNat 32 len }

/-- A command that succeeds with no other flag write (40_control.md R403). -/
def State.succeed (s : State) : State := s.setStatus s.status.succeed

/-- A command raises an error: its other writes are discarded and only STATUS changes (40_control.md R403,
60_exceptions.md R700, R703). This is the FCB's only form of exception: there is no saved state, no vector and no
return (R712). -/
def State.raiseError (s : State) (isCheck : Bool) (code : ErrorCode) : State :=
  s.setStatus (s.status.raise isCheck code)

/-- The platform's reset: every register and latch 0, every written mark cleared, and the unspecified contents of the
buffers drawn anew (70_reset_and_hazards.md R800, R801, R803; log 7, log 13). What the host has still to send stays
pending. -/
def State.platformReset (s : State) : State :=
  { State.reset with pending := s.pending, epoch := s.epoch + 1 }

end Sys2Proof.Machine
end

