-- ==== Sys2Proof/Machine/Operands.lean ====
section
/-! DEFINITION. The operands of the commands: registers and buffers, read as they stand (40_control.md R401), with
the checks on the length registers (60_exceptions.md R705). -/
namespace Sys2Proof.Machine

/-- The host's own word of a buffer, an unwritten byte being the free value (10_state.md R124,
93_implementation_defined.md "unwritten buffer words read by the host"; log 7). -/
def State.hostWord (s : State) (b : Buffer) (k : Nat) : Word :=
  (s.buf b).wordD (Config.unwrittenByte s.epoch b) k

/-- Read `n` bits of a buffer from bit `j` and go on, or stop when one of them is unwritten
(40_control.md R405; log 6). -/
def withBits (s : State) (b : Buffer) (j n : Nat) (k : Bits → Result) : Result :=
  match (s.buf b).readBits j n with
  | some bits => k bits
  | none => .fault (.unwrittenBits b)

/-- Read a buffer up to its length register and go on, the length checked first: LENGTH above the capacity, then
TRUNCATED_FRAME below `least` (60_exceptions.md R705; 10_state.md R125; log 8). `isCheck` says whether the command
is a CHK or VALIDATE (60_exceptions.md R703). -/
def withOperand (s : State) (b : Buffer) (least : Nat) (isCheck : Bool) (k : Bits → Result) : Result :=
  if capBits b < (s.len b).toNat then .next (s.raiseError isCheck .length)
  else if (s.len b).toNat < least then .next (s.raiseError isCheck .truncatedFrame)
  else withBits s b 0 (s.len b).toNat k

/-- HDR_CTL.LEN (10_state.md R108). -/
def State.hdrLen (s : State) : BitVec 16 := s.hdrCtl.extractLsb' 0 16

/-- HDR_CTL.LAST (10_state.md R108). -/
def State.hdrLast (s : State) : Bool := s.hdrCtl.getLsbD 16

end Sys2Proof.Machine
end

