-- ==== Sys2Proof/WellFormed.lean ====
section
/-! DEFINITION. What is well formed: a command, a host access (20_memory.md R204), a configuration
(00_scope.md R5, R6). -/
namespace Sys2Proof

/-- A command fits its encoding: a TAG operand is a number below 2^7 (30_encoding.md R300). The types of Syntax.lean
already say so, so every term of Instr passes. -/
def Instr.wf : Instr → Bool
  | .nop => true
  | .clr => true
  | .genCsum => true
  | .genCrc8 => true
  | .genCrc10 => true
  | .genCrc16 => true
  | .genCrc32 => true
  | .chkCsum => true
  | .chkCrc8 => true
  | .chkCrc10 => true
  | .chkCrc16 => true
  | .chkCrc32 => true
  | .hpack t => decide (t.toNat < 128)
  | .hunpack => true
  | .segStart t => decide (t.toNat < 128)
  | .segNext => true
  | .validate => true

/-- The access is 32 bits wide (20_memory.md R204). -/
def HostAccess.fullWidth (a : HostAccess) : Bool := a.bytes == 4

/-- The access is at an offset that is a multiple of 4 (20_memory.md R204). -/
def HostAccess.aligned (a : HostAccess) : Bool := a.off.toNat % 4 == 0

/-- The accesses the FCB's interface permits (20_memory.md R204). -/
def HostAccess.wf (a : HostAccess) : Bool := a.fullWidth && a.aligned

/-- A generator polynomial of the configuration has its table's length and a leading 1 (00_scope.md R6). -/
def Config.polyOk (n : Nat) (g : Bits) : Bool := g.length == n && g.head? == some true

/-- A valid configuration (00_scope.md section 4, R5, R6; 20_memory.md R201). -/
def Config.Params.wf (p : Config.Params) : Bool :=
  Config.polyOk 11 p.polyCrc10 && Config.polyOk 17 p.polyCrc16 && Config.polyOk 35 p.polyCrc32
    && p.payCapBits % 32 == 0 && decide (65536 ≤ p.payCapBits) && decide (p.payCapBits < 4294967296)
    && p.blockBase % 256 == 0

end Sys2Proof
end

