-- ==== Sys2Proof/Decode.lean ====
section
/-! DEFINITION. Decoding of tags and command words (30_encoding.md R300 to R311), the encoder, and the words of the
opcode table. -/
namespace Sys2Proof

/-- Why a command word is no command (30_encoding.md R303, R305). -/
inductive DecodeError where
  /-- ILLEGAL_COMMAND (4). -/
  | illegalCommand
  /-- UNSUPPORTED_SCHEME (1): GEN or CHK with an unknown tag. -/
  | unsupportedScheme
  deriving DecidableEq, Repr

/-- The closed tag table (30_encoding.md R310, R311). -/
def decodeTag (t : BitVec 7) : TagValue :=
  match t.toNat with
  | 0 => .known .checksum
  | 1 => .known .crc8
  | 2 => .known .crc10
  | 3 => .known .crc16
  | 4 => .known .crc32
  | _ => .unknown t

/-- The tag of a scheme (30_encoding.md R310). -/
def Scheme.tag : Scheme → BitVec 7
  | .checksum => 0
  | .crc8 => 1
  | .crc10 => 2
  | .crc16 => 3
  | .crc32 => 4

/-- RSV1, bits [31:12] (30_encoding.md R300). -/
def cmdRsv1 (w : Word) : BitVec 20 := w.extractLsb' 12 20

/-- OP, bits [11:8] (30_encoding.md R300). -/
def cmdOp (w : Word) : BitVec 4 := w.extractLsb' 8 4

/-- RSV0, bit [7] (30_encoding.md R300). -/
def cmdRsv0 (w : Word) : BitVec 1 := w.extractLsb' 7 1

/-- TAG, bits [6:0] (30_encoding.md R300, R302). -/
def cmdTag (w : Word) : BitVec 7 := w.extractLsb' 0 7

/-- The GEN command of a scheme (30_encoding.md R303, OP 0x2). -/
def genInstr : Scheme → Instr
  | .checksum => .genCsum
  | .crc8 => .genCrc8
  | .crc10 => .genCrc10
  | .crc16 => .genCrc16
  | .crc32 => .genCrc32

/-- The CHK command of a scheme (30_encoding.md R303, OP 0x3). -/
def chkInstr : Scheme → Instr
  | .checksum => .chkCsum
  | .crc8 => .chkCrc8
  | .crc10 => .chkCrc10
  | .crc16 => .chkCrc16
  | .crc32 => .chkCrc32

/-- A command that takes no TAG: a nonzero TAG field is illegal (30_encoding.md R303). -/
def untagged (t : BitVec 7) (i : Instr) : Except DecodeError Instr :=
  if t = 0 then .ok i else .error .illegalCommand

/-- A command whose TAG names its scheme: an unknown tag is an unsupported scheme (30_encoding.md R303). -/
def schemed (t : BitVec 7) (f : Scheme → Instr) : Except DecodeError Instr :=
  match decodeTag t with
  | .known sc => .ok (f sc)
  | .unknown _ => .error .unsupportedScheme

/-- Decoding by OP, the reserved fields being 0 (30_encoding.md R301, R303). -/
def decodeOp (op : BitVec 4) (t : BitVec 7) : Except DecodeError Instr :=
  match op.toNat with
  | 0x0 => untagged t .nop
  | 0x1 => untagged t .clr
  | 0x2 => schemed t genInstr
  | 0x3 => schemed t chkInstr
  | 0x4 => .ok (.hpack t)
  | 0x5 => untagged t .hunpack
  | 0x6 => .ok (.segStart t)
  | 0x7 => untagged t .segNext
  | 0x8 => untagged t .validate
  | _ => .error .illegalCommand

/-- Decoding a command word, total on all words (30_encoding.md R303). -/
def decode (w : Word) : Except DecodeError Instr :=
  if cmdRsv1 w ≠ 0 ∨ cmdRsv0 w ≠ 0 then .error .illegalCommand
  else decodeOp (cmdOp w) (cmdTag w)

/-- A command word from its OP and TAG fields, the reserved fields 0 (30_encoding.md R300). -/
def cmdWord (op : BitVec 4) (t : BitVec 7) : Word := (0#20 ++ op ++ 0#1 ++ t : BitVec (20 + 4 + 1 + 7))

/-- The word of a command (30_encoding.md R304). -/
def encode : Instr → Word
  | .nop => cmdWord 0x0 0
  | .clr => cmdWord 0x1 0
  | .genCsum => cmdWord 0x2 0
  | .genCrc8 => cmdWord 0x2 1
  | .genCrc10 => cmdWord 0x2 2
  | .genCrc16 => cmdWord 0x2 3
  | .genCrc32 => cmdWord 0x2 4
  | .chkCsum => cmdWord 0x3 0
  | .chkCrc8 => cmdWord 0x3 1
  | .chkCrc10 => cmdWord 0x3 2
  | .chkCrc16 => cmdWord 0x3 3
  | .chkCrc32 => cmdWord 0x3 4
  | .hpack t => cmdWord 0x4 t
  | .hunpack => cmdWord 0x5 0
  | .segStart t => cmdWord 0x6 t
  | .segNext => cmdWord 0x7 0
  | .validate => cmdWord 0x8 0

/-- The word the host writes to CMD for a row of the opcode table: the low `nbits` bits of `w`, every higher bit 0
(one format, one length: 30_encoding.md R306). -/
def tableWord (nbits w : Nat) : Word := BitVec.ofNat 32 (w % 2 ^ nbits)

/-- The command this decoder reads from a row of the opcode table. -/
def decodeTableWord (nbits w : Nat) : Option Instr :=
  match decode (tableWord nbits w) with
  | .ok i => some i
  | .error _ => none

end Sys2Proof
end

