-- ==== Sys2Proof/Machine/CrcCode.lean ====
section
/-! DEFINITION. The CRC code: polynomial long division over bit-strings (41_crc.md R450 to R461). -/
namespace Sys2Proof

/-- POLY_CRC8 = `111010101` (41_crc.md R450; log 5). Six of its bits are 1 (log 20). -/
def polyCrc8 : Bits := [true, true, true, false, true, false, true, false, true]

/-- `w[0 .. n) XOR g`, the rest of `w` kept (41_crc.md R453). -/
def xorInto : Bits → Bits → Bits
  | w, [] => w
  | [], _ => []
  | a :: w, b :: g => (a ^^ b) :: xorInto w g

/-- `Div(w, L, g)`: at each of the first `L` positions, left to right, XOR the polynomial in where the leading bit
is 1 (41_crc.md R453). -/
def crcDiv : (L : Nat) → (w g : Bits) → Bits
  | 0, w, _ => w
  | L + 1, w, g =>
    match (if w.headD false then xorInto w g else w) with
    | [] => []
    | b :: rest => b :: crcDiv L rest g

/-- `CrcGen(s, g)`, `n - 1` bits (41_crc.md R455, R461). -/
def crcGen (s g : Bits) : Bits := (crcDiv s.length (s ++ zeros (g.length - 1)) g).drop s.length

/-- `CrcRem(f, g)`, `n - 1` bits (41_crc.md R456). -/
def crcRem (f g : Bits) : Bits :=
  (crcDiv (f.length - (g.length - 1)) f g).drop (f.length - (g.length - 1))

/-- `CrcOk(f, g)`: the remainder is all zero (41_crc.md R457). -/
def crcOk (f g : Bits) : Bool := (crcRem f g).all (fun b => !b)

end Sys2Proof
end

