-- ==== Sys2Proof/Machine/CsumCode.lean ====
section
/-! DEFINITION. The 16-bit one's-complement checksum (42_checksum.md R500 to R506). -/
namespace Sys2Proof

/-- `s'`: `s` extended on the left with zeros to a multiple of 16 bits (42_checksum.md R502). -/
def leftPad16 (s : Bits) : Bits := zeros ((16 - s.length % 16) % 16) ++ s

/-- The values of `n` successive 16-bit words (42_checksum.md R503). -/
def words16 : Nat → Bits → List Nat
  | 0, _ => []
  | n + 1, s => val (s.take 16) :: words16 n (s.drop 16)

/-- One step of the sum, with the end-around carry (42_checksum.md R503). -/
def csumStep (sum word : Nat) : Nat :=
  if 0xFFFF < sum + word then ((sum + word) &&& 0xFFFF) + 1 else sum + word

/-- The final sum of R503 (42_checksum.md R503, R504). -/
def csumSum (s : Bits) : Nat := (words16 ((leftPad16 s).length / 16) (leftPad16 s)).foldl csumStep 0

/-- `CsumGen(s) = NOT_16(sum)` (42_checksum.md R503). -/
def csumGen (s : Bits) : BitVec 16 := ~~~ BitVec.ofNat 16 (csumSum s)

/-- `CsumOk(f)`: the code recomputed over the prefix equals the trailing 16 bits (42_checksum.md R506). -/
def csumOk (f : Bits) : Bool := (csumGen (f.take (f.length - 16))).toNat == val (f.drop (f.length - 16))

end Sys2Proof
end

