-- ==== Sys2Proof/Machine/Scheme.lean ====
section
/-! DEFINITION. The redundancy schemes: the width, the code and the check of each (30_encoding.md R310, R323;
41_crc.md R450, R452; 42_checksum.md R501). -/
namespace Sys2Proof

/-- `POLY(tag)`, for the CRC schemes (41_crc.md R450). -/
def Scheme.poly? : Scheme → Option Bits
  | .checksum => none
  | .crc8 => some polyCrc8
  | .crc10 => some Config.polyCrc10
  | .crc16 => some Config.polyCrc16
  | .crc32 => some Config.polyCrc32

/-- `R(tag)`: 16 for the checksum, the polynomial's length minus one for a CRC (41_crc.md R452, 42_checksum.md
R501). -/
def Scheme.codeWidth (sc : Scheme) : Nat :=
  match sc.poly? with
  | none => 16
  | some g => g.length - 1

/-- `Code(tag, s)`, R(tag) bits (30_encoding.md R323; 41_crc.md R455; 42_checksum.md R503, R504). -/
def Scheme.generate (sc : Scheme) (s : Bits) : Bits :=
  match sc.poly? with
  | none => bitsOf 16 (csumGen s).toNat
  | some g => crcGen s g

/-- What a check leaves in CODE: the recomputed checksum, or the CRC remainder (41_crc.md R466, 42_checksum.md R511,
45_validator.md R651). -/
def Scheme.checkCode (sc : Scheme) (f : Bits) : Nat :=
  match sc.poly? with
  | none => (csumGen (f.take (f.length - 16))).toNat
  | some g => val (crcRem f g)

/-- Whether a check passes (41_crc.md R457, 42_checksum.md R506). -/
def Scheme.checkOk (sc : Scheme) (f : Bits) : Bool :=
  match sc.poly? with
  | none => csumOk f
  | some g => crcOk f g

end Sys2Proof
end

