-- ==== Sys2Proof/Machine/CodeOps.lean ====
section
/-! DEFINITION. The common procedures of the GEN and CHK commands (41_crc.md R465, R466; 42_checksum.md R510,
R511). -/
namespace Sys2Proof.Machine

/-- The procedure of the GEN commands: the code of DAT into CODE (41_crc.md R465, 42_checksum.md R510). -/
def generateDat (sc : Scheme) (s : State) : Result :=
  withOperand s .dat 0 false fun bits => .next (s.setCode (val (sc.generate bits))).succeed

/-- A check of `f` that ran: CODE and RESULT written, ERR ← 0 (41_crc.md R466, 42_checksum.md R511). -/
def State.recordCheck (s : State) (sc : Scheme) (f : Bits) : State :=
  (s.setCode (sc.checkCode f)).setStatus (s.status.checked (CheckResult.ofCheck (sc.checkOk f)))

/-- The procedure of the CHK commands: DAT with its trailing code checked (41_crc.md R466, 42_checksum.md R511). -/
def checkDat (sc : Scheme) (s : State) : Result :=
  withOperand s .dat sc.codeWidth true fun f => .next (s.recordCheck sc f)

end Sys2Proof.Machine
end

