-- ==== Sys2Proof/Machine/Checksum.lean ====
section
/-! DEFINITION. GEN.CSUM and CHK.CSUM (42_checksum.md R510, R511). -/
namespace Sys2Proof.Machine

/-- GEN.CSUM (42_checksum.md R510). -/
def execGenCsum (s : State) : Result := generateDat .checksum s

/-- CHK.CSUM (42_checksum.md R511). -/
def execChkCsum (s : State) : Result := checkDat .checksum s

end Sys2Proof.Machine
end

