-- ==== Sys2Proof/Machine/Control.lean ====
section
/-! DEFINITION. NOP and CLR (40_control.md R420, R421). -/
namespace Sys2Proof.Machine

/-- NOP: ERR ← 0 (40_control.md R420). -/
def execNop (s : State) : Result := .next s.succeed

/-- CLR: ERR, STICKY and RESULT cleared (40_control.md R421). -/
def execClr (s : State) : Result := .next (s.setStatus s.status.clear)

end Sys2Proof.Machine
end

