-- ==== Sys2Proof/Machine/Crc.lean ====
section
/-! DEFINITION. The GEN.CRCn and CHK.CRCn commands (41_crc.md R470 to R473, R480 to R483). -/
namespace Sys2Proof.Machine

/-- GEN.CRC8 (41_crc.md R470). -/
def execGenCrc8 (s : State) : Result := generateDat .crc8 s

/-- GEN.CRC10 (41_crc.md R471). -/
def execGenCrc10 (s : State) : Result := generateDat .crc10 s

/-- GEN.CRC16 (41_crc.md R472). -/
def execGenCrc16 (s : State) : Result := generateDat .crc16 s

/-- GEN.CRC32 (41_crc.md R473). -/
def execGenCrc32 (s : State) : Result := generateDat .crc32 s

/-- CHK.CRC8 (41_crc.md R480). -/
def execChkCrc8 (s : State) : Result := checkDat .crc8 s

/-- CHK.CRC10 (41_crc.md R481). -/
def execChkCrc10 (s : State) : Result := checkDat .crc10 s

/-- CHK.CRC16 (41_crc.md R482). -/
def execChkCrc16 (s : State) : Result := checkDat .crc16 s

/-- CHK.CRC32 (41_crc.md R483). -/
def execChkCrc32 (s : State) : Result := checkDat .crc32 s

end Sys2Proof.Machine
end

