-- ==== Sys2Proof/Machine/Header.lean ====
section
/-! DEFINITION. The header packer and unpacker (43_header.md; the layout is 30_encoding.md R320, R321). -/
namespace Sys2Proof.Machine

/-- `header(ip_s, port_s, ip_r, port_r, len, last, tag)`, 120 bits (30_encoding.md R321, 43_header.md R550). -/
def header (srcIp : Word) (srcPort : BitVec 16) (dstIp : Word) (dstPort : BitVec 16) (len : BitVec 16) (last : Bool)
    (tag : BitVec 7) : Bits :=
  bitsOf 32 srcIp.toNat ++ bitsOf 16 srcPort.toNat ++ bitsOf 32 dstIp.toNat ++ bitsOf 16 dstPort.toNat
    ++ bitsOf 16 len.toNat ++ [last] ++ bitsOf 7 tag.toNat

/-- The header HPACK packs (43_header.md R552). -/
def State.packedHeader (s : State) (t : BitVec 7) : Bits :=
  header s.srcIp s.srcPort s.dstIp s.dstPort s.hdrLen s.hdrLast t

/-- HPACK t: the header and 8 zero bits into TX words 0 to 3 (43_header.md R552). -/
def execHpack (t : BitVec 7) (s : State) : Result :=
  .next (s.putTx (s.packedHeader t ++ zeros 8) 120).succeed

/-- The least length the unpacker accepts (43_header.md R558). -/
def leastFrameBits : Nat := 128

/-- The fields of an unpacked frame, from its header, the width of its region and its code (43_header.md R559). -/
def unpackedFields (f : Bits) (known : Bool) (region code : Nat) : RxFields :=
  { srcIp := BitVec.ofNat 32 (val (slice f 0 32))
    srcPort := BitVec.ofNat 16 (val (slice f 32 48))
    dstIp := BitVec.ofNat 32 (val (slice f 48 80))
    dstPort := BitVec.ofNat 16 (val (slice f 80 96))
    len := BitVec.ofNat 16 (val (slice f 96 112))
    last := f.getD 112 false
    known := known
    lenErr := decide (region < val (slice f 96 112))
    tag := BitVec.ofNat 7 (val (slice f 113 120))
    region := BitVec.ofNat 32 region
    code := BitVec.ofNat 64 code }

/-- The tag of a frame (43_header.md R559). -/
def frameTag (f : Bits) : TagValue := decodeTag (BitVec.ofNat 7 (val (slice f 113 120)))

/-- `Unpack(f)`; nothing where it raises TRUNCATED_FRAME (43_header.md R558, R559). -/
def unpack (f : Bits) : Option RxFields :=
  if f.length < leastFrameBits then none
  else
    match frameTag f with
    | .known sc =>
      if f.length < 120 + sc.codeWidth then none
      else some (unpackedFields f true (f.length - 120 - sc.codeWidth) (val (f.drop (f.length - sc.codeWidth))))
    | .unknown _ => some (unpackedFields f false (f.length - 120) 0)

/-- HUNPACK (43_header.md R560). -/
def execHunpack (s : State) : Result :=
  withOperand s .rx leastFrameBits false fun f =>
    match unpack f with
    | none => .next (s.raiseError false .truncatedFrame)
    | some u => .next (s.setRxf u).succeed

end Sys2Proof.Machine
end

