-- ==== Sys2Proof/Machine/Segmenter.lean ====
section
/-! DEFINITION. The payload-to-frame segmenter (44_segmenter.md). -/
namespace Sys2Proof.Machine

/-- `chunkBits`, over the integers (44_segmenter.md R602). -/
def chunkBits (fsize : Nat) (sc : Scheme) : Int := 8 * (fsize : Int) - 120 - (sc.codeWidth : Int)

/-- What SEG.START latches (10_state.md R120, 44_segmenter.md R605). -/
def State.latched (s : State) (t : BitVec 7) (sc : Scheme) : Latches :=
  { tag := t
    r := BitVec.ofNat 6 sc.codeWidth
    fsize := s.frameSize
    chunk := BitVec.ofInt 16 (chunkBits s.frameSize.toNat sc)
    payLen := s.payLen
    srcIp := s.srcIp
    srcPort := s.srcPort
    dstIp := s.dstIp
    dstPort := s.dstPort }

/-- The state a successful SEG.START leaves (44_segmenter.md R605). -/
def State.segStarted (s : State) (t : BitVec 7) (sc : Scheme) : State :=
  { s with latch := s.latched t sc, segPos := 0, segCount := 0, status := s.status.segStarted }

/-- SEG.START t (44_segmenter.md R605): UNSUPPORTED_SCHEME, LENGTH and FRAME_TOO_SMALL are checked in that order. -/
def execSegStart (t : BitVec 7) (s : State) : Result :=
  match decodeTag t with
  | .unknown _ => .next (s.raiseError false .unsupportedScheme)
  | .known sc =>
    if capBits .pay < s.payLen.toNat then .next (s.raiseError false .length)
    else if chunkBits s.frameSize.toNat sc ≤ 0 then .next (s.raiseError false .frameTooSmall)
    else .next (s.segStarted t sc)

/-- The body of a frame: header, data, padding (30_encoding.md R322, 44_segmenter.md R607). -/
def frameBody (l : Latches) (d : Bits) (last : Bool) : Bits :=
  header l.srcIp l.srcPort l.dstIp l.dstPort (BitVec.ofNat 16 d.length) last l.tag
    ++ d ++ zeros (l.chunk.toNat - d.length)

/-- `SegFrame`, with the latched addresses, chunk width and tag (44_segmenter.md R607, 30_encoding.md R323). -/
def segFrame (l : Latches) (sc : Scheme) (d : Bits) (last : Bool) : Bits :=
  frameBody l d last ++ sc.generate (frameBody l d last)

/-- Zeros up to a whole word (44_segmenter.md R610). -/
def padToWord (f : Bits) : Bits := f ++ zeros ((32 - f.length % 32) % 32)

/-- The length `w` of the next window (44_segmenter.md R604, R610). -/
def State.windowLen (s : State) : Nat := min s.latch.chunk.toNat (s.latch.payLen.toNat - s.segPos.toNat)

/-- Whether the next window is the last (44_segmenter.md R606, R610). -/
def State.windowLast (s : State) : Bool := decide (s.latch.payLen.toNat ≤ s.segPos.toNat + s.latch.chunk.toNat)

/-- The next frame, of the window's data `d` (44_segmenter.md R607, R610). -/
def State.nextFrame (s : State) (sc : Scheme) (d : Bits) : Bits := segFrame s.latch sc d s.windowLast

/-- The state after the frame of data `d` was emitted (44_segmenter.md R610). -/
def State.frameEmitted (s : State) (sc : Scheme) (d : Bits) : State :=
  let f := s.nextFrame sc d
  { (s.putTx (padToWord f) (8 * s.latch.fsize.toNat)).setCode (val (f.drop (f.length - s.latch.r.toNat))) with
    segPos := BitVec.ofNat 32 (s.segPos.toNat + s.windowLen)
    segCount := s.segCount + 1
    status := s.status.frameEmitted s.windowLast }

/-- SEG.NEXT (44_segmenter.md R610): the window's bits are read from PAY as it stands. -/
def execSegNext (s : State) : Result :=
  if s.status.segActive then
    withBits s .pay s.segPos.toNat s.windowLen fun d =>
      match decodeTag s.latch.tag with
      | .known sc => .next (s.frameEmitted sc d)
      | .unknown _ => .fault .latchedTagUnknown
  else .next (s.raiseError false .sequence)

end Sys2Proof.Machine
end

