-- ==== Sys2Proof/Machine/Validator.lean ====
section
/-! DEFINITION. The frame validator (45_validator.md). -/
namespace Sys2Proof.Machine

/-- The state after VALIDATE ran on a frame that unpacks (45_validator.md R651, R652): an unknown tag is
UNDETERMINED and leaves CODE, a known one is checked over the whole frame. -/
def State.validated (s : State) (f : Bits) (u : RxFields) : State :=
  match frameTag f with
  | .unknown _ => (s.setRxf u).setStatus (s.status.checked .undetermined)
  | .known sc => (s.setRxf u).recordCheck sc f

/-- VALIDATE (45_validator.md R651). -/
def execValidate (s : State) : Result :=
  withOperand s .rx leastFrameBits true fun f =>
    match unpack f with
    | none => .next (s.raiseError true .truncatedFrame)
    | some u => .next (s.validated f u)

end Sys2Proof.Machine
end

