-- ==== Sys2Proof/Machine/Dispatch.lean ====
section
/-! DEFINITION. One arm per command (40_control.md R400). -/
namespace Sys2Proof.Machine

def exec (i : Instr) (s : State) : Host.Outcome State Fault Refusal :=
  match i with
  | .nop => Sys2Proof.Machine.execNop s
  | .clr => Sys2Proof.Machine.execClr s
  | .genCsum => Sys2Proof.Machine.execGenCsum s
  | .genCrc8 => Sys2Proof.Machine.execGenCrc8 s
  | .genCrc10 => Sys2Proof.Machine.execGenCrc10 s
  | .genCrc16 => Sys2Proof.Machine.execGenCrc16 s
  | .genCrc32 => Sys2Proof.Machine.execGenCrc32 s
  | .chkCsum => Sys2Proof.Machine.execChkCsum s
  | .chkCrc8 => Sys2Proof.Machine.execChkCrc8 s
  | .chkCrc10 => Sys2Proof.Machine.execChkCrc10 s
  | .chkCrc16 => Sys2Proof.Machine.execChkCrc16 s
  | .chkCrc32 => Sys2Proof.Machine.execChkCrc32 s
  | .hpack t => Sys2Proof.Machine.execHpack t s
  | .hunpack => Sys2Proof.Machine.execHunpack s
  | .segStart t => Sys2Proof.Machine.execSegStart t s
  | .segNext => Sys2Proof.Machine.execSegNext s
  | .validate => Sys2Proof.Machine.execValidate s

end Sys2Proof.Machine
end

