-- ==== Sys2Proof/Machine/Port.lean ====
section
/-! DEFINITION. The register window as the host sees it: the map, reads, writes, and the buffer port
(10_state.md R102, R124, R134; 20_memory.md R200 to R209). -/
namespace Sys2Proof.Machine

/-- The byte offset of a register (10_state.md R102). -/
def regOffset : Reg → BitVec 8
  | .cmd => 0x00 | .status => 0x04 | .frameSize => 0x08 | .srcIp => 0x0C | .srcPort => 0x10 | .dstIp => 0x14
  | .dstPort => 0x18 | .hdrCtl => 0x1C | .codeLo => 0x20 | .codeHi => 0x24 | .segChunk => 0x28 | .segPos => 0x2C
  | .segCount => 0x30 | .segCfg => 0x34 | .bufSel => 0x40 | .bufIdx => 0x44 | .bufData => 0x48 | .payLen => 0x4C
  | .datLen => 0x50 | .txLen => 0x54 | .rxbLen => 0x58 | .rxfSrcIp => 0x60 | .rxfSrcPort => 0x64
  | .rxfDstIp => 0x68 | .rxfDstPort => 0x6C | .rxfCtl => 0x70 | .rxfRegion => 0x74 | .rxfCodeLo => 0x78
  | .rxfCodeHi => 0x7C

/-- Every register of the map, in the map's order (10_state.md R102). -/
def allRegs : List Reg :=
  [.cmd, .status, .frameSize, .srcIp, .srcPort, .dstIp, .dstPort, .hdrCtl, .codeLo, .codeHi, .segChunk, .segPos,
    .segCount, .segCfg, .bufSel, .bufIdx, .bufData, .payLen, .datLen, .txLen, .rxbLen, .rxfSrcIp, .rxfSrcPort,
    .rxfDstIp, .rxfDstPort, .rxfCtl, .rxfRegion, .rxfCodeLo, .rxfCodeHi]

/-- The register at an offset, if the offset is mapped (10_state.md R102, 20_memory.md R206, R209). -/
def regAt (off : BitVec 8) : Option Reg := allRegs.find? (fun r => regOffset r == off)

/-- The buffer BUF_SEL selects (10_state.md R122). -/
def State.selected (s : State) : Buffer := bufferOfSel s.bufSel

/-- What a host read of BUF_DATA returns: word BUF_IDX of the selected buffer, 0 out of range (10_state.md R124). -/
def State.portWord (s : State) : Word :=
  if s.bufIdx.toNat < capWords s.selected then s.hostWord s.selected s.bufIdx.toNat else 0

/-- The value a host read of a register returns (10_state.md R134). -/
def State.readReg (s : State) : Reg → Word
  | .cmd => s.cmd
  | .status => s.status.word
  | .frameSize => s.frameSize.setWidth 32
  | .srcIp => s.srcIp
  | .srcPort => s.srcPort.setWidth 32
  | .dstIp => s.dstIp
  | .dstPort => s.dstPort.setWidth 32
  | .hdrCtl => s.hdrCtl.setWidth 32
  | .codeLo => s.code.extractLsb' 0 32
  | .codeHi => s.code.extractLsb' 32 32
  | .segChunk => s.latch.chunk.setWidth 32
  | .segPos => s.segPos
  | .segCount => s.segCount
  | .segCfg => s.latch.cfgWord
  | .bufSel => s.bufSel.setWidth 32
  | .bufIdx => s.bufIdx
  | .bufData => s.portWord
  | .payLen => s.payLen
  | .datLen => s.datLen
  | .txLen => s.txLen
  | .rxbLen => s.rxbLen
  | .rxfSrcIp => s.rxf.srcIp
  | .rxfSrcPort => s.rxf.srcPort.setWidth 32
  | .rxfDstIp => s.rxf.dstIp
  | .rxfDstPort => s.rxf.dstPort.setWidth 32
  | .rxfCtl => s.rxf.ctlWord
  | .rxfRegion => s.rxf.region
  | .rxfCodeLo => s.rxf.code.extractLsb' 0 32
  | .rxfCodeHi => s.rxf.code.extractLsb' 32 32

/-- BUF_IDX ← BUF_IDX + 1 modulo 2^32 (10_state.md R123). -/
def State.advanceIdx (s : State) : State := { s with bufIdx := s.bufIdx + 1 }

/-- A host write of BUF_DATA: the word stored if it is in range and the buffer is not TX, then the index advanced
(10_state.md R124). -/
def State.writePort (s : State) (v : Word) : State :=
  if s.bufIdx.toNat < capWords s.selected ∧ s.selected ≠ .tx then
    (s.setBuf s.selected ((s.buf s.selected).storeWord s.bufIdx.toNat v)).advanceIdx
  else s.advanceIdx

/-- A host write of a register other than CMD: an RW register takes its implemented bits, BUF_DATA acts as a port,
and an RO register ignores the write (10_state.md R102, R134). -/
def State.writeReg (s : State) (r : Reg) (v : Word) : State :=
  match r with
  | .frameSize => { s with frameSize := v.setWidth 13 }
  | .srcIp => { s with srcIp := v }
  | .srcPort => { s with srcPort := v.setWidth 16 }
  | .dstIp => { s with dstIp := v }
  | .dstPort => { s with dstPort := v.setWidth 16 }
  | .hdrCtl => { s with hdrCtl := v.setWidth 17 }
  | .bufSel => { s with bufSel := v.setWidth 2 }
  | .bufIdx => { s with bufIdx := v }
  | .bufData => s.writePort v
  | .payLen => { s with payLen := v }
  | .datLen => { s with datLen := v }
  | .rxbLen => { s with rxbLen := v }
  | .cmd | .status | .codeLo | .codeHi | .segChunk | .segPos | .segCount | .segCfg | .txLen | .rxfSrcIp
  | .rxfSrcPort | .rxfDstIp | .rxfDstPort | .rxfCtl | .rxfRegion | .rxfCodeLo | .rxfCodeHi => s

/-- A host read of an offset: the value returned is the reply, 0 where nothing is mapped; a read of BUF_DATA
advances BUF_IDX (10_state.md R124, 20_memory.md R206, R207). -/
def State.readAt (s : State) (off : BitVec 8) : State :=
  match regAt off with
  | none => { s with reply := some 0 }
  | some .bufData => { s.advanceIdx with reply := some s.portWord }
  | some r => { s with reply := some (s.readReg r) }

/-- The window offset a host address reaches, if it lies in the window (20_memory.md R200, R201; log 2). DESIGN
CHOICE (log 2): the first byte's address alone decides, so an access that starts below BLOCK_BASE and extends into the
window is not an FCB access, and one that starts in the window and extends past it is. -/
def windowOffset? (addr : Nat) : Option (BitVec 8) :=
  if Config.blockBase ≤ addr ∧ addr < Config.blockBase + 256 then some (BitVec.ofNat 8 (addr - Config.blockBase))
  else none

/-- The host issues an access to a host address: one to the window is served after those already issued, any other is
not an FCB access (20_memory.md R211, R201; 93_implementation_defined.md "access outside the window"; log 1,
log 2). -/
def State.hostIssue (s : State) (addr bytes : Nat) (op : HostOp) : State :=
  match windowOffset? addr with
  | some off => { s with pending := s.pending ++ [.access { off := off, bytes := bytes, op := op }] }
  | none => s

end Sys2Proof.Machine
end

