-- ==== Sys2Proof/Machine/Command.lean ====
section
/-! DEFINITION. Serving what reaches the FCB from outside: a host access, a command written to CMD, a reset
(40_control.md R400; 10_state.md R109; 20_memory.md R204 to R207). -/
namespace Sys2Proof.Machine

/-- The error code of a word that is no command (30_encoding.md R303). -/
def decodeErrorCode : DecodeError → ErrorCode
  | .illegalCommand => .illegalCommand
  | .unsupportedScheme => .unsupportedScheme

/-- Whether the word's OP field is 0x3 (CHK) or 0x8 (VALIDATE) (60_exceptions.md R703). -/
def isCheckWord (w : Word) : Bool := cmdOp w == 0x3 || cmdOp w == 0x8

/-- A host write of CMD: the word is recorded, legal or not, and executed (10_state.md R109, 40_control.md R400). -/
def runCommand (w : Word) (s : State) : Result :=
  match decode w with
  | .ok i => exec i { s with cmd := w }
  | .error e => .next (({ s with cmd := w } : State).raiseError (isCheckWord w) (decodeErrorCode e))

/-- A permitted host write to an offset (10_state.md R102, R109; 20_memory.md R206). A write returns no value. -/
def writeAt (off : BitVec 8) (v : Word) (s : State) : Result :=
  match regAt off with
  | none => .next { s with reply := none }
  | some .cmd => runCommand v { s with reply := none }
  | some r => .next (({ s with reply := none } : State).writeReg r v)

/-- A host access, refused where the interface does not permit it (20_memory.md R204). -/
def serveAccess (a : HostAccess) (s : State) : Result :=
  if !a.fullWidth then .refused .accessWidth
  else if !a.aligned then .refused .misalignedAccess
  else
    match a.op with
    | .read => .next (s.readAt a.off)
    | .write v => writeAt a.off v s

/-- One event from outside (00_scope.md R4, 70_reset_and_hazards.md R803). -/
def serve (e : BusEvent) (s : State) : Result :=
  match e with
  | .access a => serveAccess a s
  | .reset => .next s.platformReset

/-- The host access that writes a command word to CMD (30_encoding.md R307, `cmd M`). -/
def cmdAccess (w : Word) : HostAccess := { off := regOffset .cmd, bytes := 4, op := .write w }

end Sys2Proof.Machine
end

