-- ==== Sys2Proof/Machine/Step.lean ====
section
/-! DEFINITION. One step: the oldest pending event is served to completion (20_memory.md R211, 40_control.md R401);
with nothing pending the block is idle and holds all state (60_exceptions.md R725). -/
namespace Sys2Proof.Machine

/-- One step of the FCB. -/
def step (s : State) : Host.Outcome State Fault Refusal :=
  match s.pending with
  | [] => .next s
  | e :: rest => serve e { s with pending := rest }

/-- `s` with the host's write of a command word placed as the next access to be served. -/
def State.withFetchWord (s : State) (nbits w : Nat) : State :=
  { s with pending := .access (cmdAccess (tableWord nbits w)) :: s.pending }

end Sys2Proof.Machine
end

