-- ==== Sys2Proof/Safety.lean ====
section
/-! DEFINITION. What counts as a safe state: the invariant every step keeps, the register map as
the spec tabulates it, and the terms in which the statements speak of runs of SEG.NEXT and of received frames. -/
namespace Sys2Proof.Machine

/-- A buffer's contents are in canonical form and lie within its capacity (10_state.md R131). -/
abbrev BufferOk (b : Buffer) (m : Memory) : Prop :=
  Memory.wf m = true ∧ m.all (fun c => decide (c.1 < capWords b * 4)) = true

/-- TX_LEN fits TX, and every TX bit below it has been written (10_state.md R126, R133). -/
abbrev State.TxOk (s : State) : Prop :=
  s.txLen.toNat ≤ 65536 ∧ ∀ j < s.txLen.toNat, (s.tx.bit? j).isSome = true

/-- The latches are those of a successful SEG.START (44_segmenter.md R605): a known tag, its code width, a positive
chunk width that fits the frame size, and a payload that fits PAY. -/
abbrev Latches.Consistent (l : Latches) : Prop :=
  match decodeTag l.tag with
  | .unknown _ => False
  | .known sc =>
    l.r.toNat = sc.codeWidth ∧ 120 + l.chunk.toNat + sc.codeWidth = 8 * l.fsize.toNat ∧ 0 < l.chunk.toNat
      ∧ l.payLen.toNat ≤ capBits .pay

/-- `N = max(1, ceil(P / chunkBits))`, the number of windows of the latched payload (44_segmenter.md R604, R612). -/
def Latches.frameCount (l : Latches) : Nat := max 1 ((l.payLen.toNat + l.chunk.toNat - 1) / l.chunk.toNat)

/-- No segmentation was started since reset: the segmenter is as reset left it (70_reset_and_hazards.md R800). -/
abbrev State.SegIdle (s : State) : Prop :=
  s.status.segActive = false ∧ s.status.segDone = false ∧ s.status.last = false ∧ s.latch = Latches.reset
    ∧ s.segPos = 0 ∧ s.segCount = 0

/-- Frames are left to emit: SEG_POS stands at the start of a window, and every frame so far was full
(44_segmenter.md R604, R610). -/
abbrev State.SegRunning (s : State) : Prop :=
  s.status.segActive = true ∧ s.status.segDone = false ∧ s.status.last = false ∧ s.latch.Consistent
    ∧ s.segPos.toNat = s.segCount.toNat * s.latch.chunk.toNat
    ∧ (s.segPos.toNat < s.latch.payLen.toNat ∨ (s.latch.payLen = 0 ∧ s.segCount = 0))

/-- The tail frame was emitted: all of the payload is consumed (44_segmenter.md R606, R612). -/
abbrev State.SegFinished (s : State) : Prop :=
  s.status.segActive = false ∧ s.status.segDone = true ∧ s.status.last = true ∧ s.latch.Consistent
    ∧ s.segPos = s.latch.payLen ∧ s.segCount.toNat = s.latch.frameCount

/-- The invariant of the FCB: the buffers are in form, TX is written up to TX_LEN, an error in STATUS is also
recorded in STICKY (10_state.md R112), the two code registers hold at most 34 bits (R115, R130), and the segmenter is
in one of its three phases (10_state.md R114, R121). -/
structure State.Inv (s : State) : Prop where
  payOk : BufferOk .pay s.pay
  datOk : BufferOk .dat s.dat
  txOk : BufferOk .tx s.tx
  rxOk : BufferOk .rx s.rx
  txWritten : s.TxOk
  errSticky : s.status.err ≠ .none → s.status.sticky = true
  codeWidth : s.code.toNat < 2 ^ 34
  rxfCodeWidth : s.rxf.code.toNat < 2 ^ 34
  segmenter : s.SegIdle ∨ s.SegRunning ∨ s.SegFinished

/-- A row of the register map: the register, its byte offset, whether it is an RW register that holds what the host
wrote, and its implemented bits (10_state.md R102). -/
structure MapRow where
  reg  : Reg
  off  : BitVec 8
  rw   : Bool
  mask : Word
  deriving DecidableEq, Repr

/-- The register map, transcribed from the table of 10_state.md R102 row by row. BUF_DATA is a port and CMD issues a
command, so neither is marked RW. -/
def registerMap : List MapRow :=
  [⟨.cmd, 0x00, false, 0xFFFFFFFF⟩, ⟨.status, 0x04, false, 0x0000073F⟩, ⟨.frameSize, 0x08, true, 0x00001FFF⟩,
    ⟨.srcIp, 0x0C, true, 0xFFFFFFFF⟩, ⟨.srcPort, 0x10, true, 0x0000FFFF⟩, ⟨.dstIp, 0x14, true, 0xFFFFFFFF⟩,
    ⟨.dstPort, 0x18, true, 0x0000FFFF⟩, ⟨.hdrCtl, 0x1C, true, 0x0001FFFF⟩, ⟨.codeLo, 0x20, false, 0xFFFFFFFF⟩,
    ⟨.codeHi, 0x24, false, 0xFFFFFFFF⟩, ⟨.segChunk, 0x28, false, 0x0000FFFF⟩, ⟨.segPos, 0x2C, false, 0xFFFFFFFF⟩,
    ⟨.segCount, 0x30, false, 0xFFFFFFFF⟩, ⟨.segCfg, 0x34, false, 0x1FFF3F7F⟩]
  ++ [⟨.bufSel, 0x40, true, 0x00000003⟩, ⟨.bufIdx, 0x44, true, 0xFFFFFFFF⟩, ⟨.bufData, 0x48, false, 0xFFFFFFFF⟩,
    ⟨.payLen, 0x4C, true, 0xFFFFFFFF⟩, ⟨.datLen, 0x50, true, 0xFFFFFFFF⟩, ⟨.txLen, 0x54, false, 0xFFFFFFFF⟩,
    ⟨.rxbLen, 0x58, true, 0xFFFFFFFF⟩]
  ++ [⟨.rxfSrcIp, 0x60, false, 0xFFFFFFFF⟩, ⟨.rxfSrcPort, 0x64, false, 0x0000FFFF⟩,
    ⟨.rxfDstIp, 0x68, false, 0xFFFFFFFF⟩, ⟨.rxfDstPort, 0x6C, false, 0x0000FFFF⟩, ⟨.rxfCtl, 0x70, false, 0x7F07FFFF⟩,
    ⟨.rxfRegion, 0x74, false, 0xFFFFFFFF⟩, ⟨.rxfCodeLo, 0x78, false, 0xFFFFFFFF⟩,
    ⟨.rxfCodeHi, 0x7C, false, 0xFFFFFFFF⟩]

/-- The operand bits a command consumes, below the length register, have all been written (40_control.md R405,
70_reset_and_hazards.md R804). Commands that read no buffer consume none. -/
def State.operandsWritten (s : State) : Instr → Bool
  | .genCsum | .genCrc8 | .genCrc10 | .genCrc16 | .genCrc32 | .chkCsum | .chkCrc8 | .chkCrc10 | .chkCrc16
  | .chkCrc32 => (s.dat.readBits 0 s.datLen.toNat).isSome
  | .hunpack | .validate => (s.rx.readBits 0 s.rxbLen.toNat).isSome
  | .segNext => (s.pay.readBits s.segPos.toNat s.windowLen).isSome
  | .nop | .clr | .hpack _ | .segStart _ => true

/-- `n` successive SEG.NEXT commands, each ending without error, and the frames they leave in TX, in emission order
(44_segmenter.md R612). -/
def emitFrames : Nat → State → Option (List Bits × State)
  | 0, s => some ([], s)
  | n + 1, s =>
    match exec .segNext s with
    | .next t =>
      if t.status.err = .none then
        match t.tx.readBits 0 t.txLen.toNat, emitFrames n t with
        | some f, some (fs, u) => some (f :: fs, u)
        | _, _ => none
      else none
    | .fault _ => none
    | .refused _ => none

/-- `getData(f)`: the data of a frame, by its own payloadLength (43_header.md R563). -/
def frameData (f : Bits) : Bits := slice f 120 (120 + val (slice f 96 112))

/-- The bit-string with the `b` bits from position `i` on flipped (45_validator.md R654, R655). -/
def flipRun (f : Bits) (i b : Nat) : Bits :=
  xorBits f (zeros i ++ List.replicate b true ++ zeros (f.length - i - b))

end Sys2Proof.Machine
end

