-- ==== Sys2Proof/Certificates/Slice0/Obligations.lean ====
section
/-! DEFINITION. The statements about the FCB, from the numbered rules of the spec. Each docstring names the rule. -/
open Sys2Proof Sys2Proof.Machine

/-- The polynomial over GF(2) of a bit-string, its first bit the highest coefficient (41_crc.md R458). -/
noncomputable def Sys2Proof.gf2Poly (s : Bits) : Polynomial (ZMod 2) :=
  s.foldl (fun p b => p * Polynomial.X + Polynomial.C (if b then 1 else 0)) 0

/-! ## Reset, idle and the invariant -/

/-- 70_reset_and_hazards.md R800: after reset every register reads 0 and every latch is 0. The last clause, that no
buffer bit is written, is R801's cleared marks as log 6 holds them; for TX, which 10_state.md R133 gives no mark, it is
the model's choice alone (log 6). -/
def Obligations.ResetClearsRegistersAndMarks : Prop :=
  (∀ r : Reg, r ≠ .bufData → State.reset.readReg r = 0)
  ∧ State.reset.latch = ⟨0, 0, 0, 0, 0, 0, 0, 0, 0⟩
  ∧ ∀ (b : Buffer) (j : Nat), (State.reset.buf b).bit? j = none

/-- 70_reset_and_hazards.md R800, R801, R803. That the platform's reset is an event served in order, and that it
advances the count that keys the unspecified contents, is the model's choice (log 13, log 7). -/
def Obligations.PlatformResetRestoresResetState : Prop :=
  ∀ (s : State) (rest : List BusEvent), s.pending = .reset :: rest →
    ∃ t, step s = .next t
      ∧ (∀ r : Reg, r ≠ .bufData → t.readReg r = 0)
      ∧ t.latch = ⟨0, 0, 0, 0, 0, 0, 0, 0, 0⟩
      ∧ (∀ (b : Buffer) (j : Nat), (t.buf b).bit? j = none)
      ∧ t.pending = rest ∧ t.epoch = s.epoch + 1

/-- 60_exceptions.md R725: with nothing to serve the block holds all state. -/
def Obligations.IdleHoldsAllState : Prop := ∀ s : State, s.pending = [] → step s = .next s

/-- The invariant of Safety.lean holds after reset. -/
def Obligations.ResetSatisfiesInvariant : Prop := State.reset.Inv

/-- 00_scope.md R5, R6, 20_memory.md R201: the OPEN parameters form a valid configuration, whatever they are. That
they are opaque constants is the model's choice (log 2, log 3, log 4). -/
def Obligations.ConfigurationIsValid : Prop := Config.params.wf = true

/-- The invariant of Safety.lean is kept by every step: a command, a host access, a reset (10_state.md R112, R114,
R115, R121, R131, R133; 44_segmenter.md R604, R605, R610). -/
def Obligations.StepKeepsInvariant : Prop := ∀ s t : State, s.Inv → step s = .next t → t.Inv

/-- 10_state.md R117, R118: neither counter of the segmenter wraps. -/
def Obligations.SegmenterCountersNeverWrap : Prop :=
  ∀ s t : State, s.Inv → s.status.segActive = true → exec .segNext s = .next t →
    t.segCount.toNat = s.segCount.toNat + 1
    ∧ t.segPos.toNat = s.segPos.toNat + min s.latch.chunk.toNat (s.latch.payLen.toNat - s.segPos.toNat)
    ∧ t.segCount.toNat ≤ max 1 Config.params.payCapBits

/-! ## Decoding -/

/-- 30_encoding.md R300, R304: decoding the word of a well-formed command gives it back. -/
def Obligations.DecodeEncodeRoundTrip : Prop := ∀ i : Instr, i.wf = true → decode (encode i) = .ok i

/-- 30_encoding.md R304: each word of the table, and no other, decodes to its command. -/
def Obligations.CommandWordsAreTheTable : Prop :=
  ∀ w : Word,
    (decode w = .ok .nop ↔ w = 0x00000000) ∧ (decode w = .ok .clr ↔ w = 0x00000100)
    ∧ (decode w = .ok .genCsum ↔ w = 0x00000200) ∧ (decode w = .ok .genCrc8 ↔ w = 0x00000201)
    ∧ (decode w = .ok .genCrc10 ↔ w = 0x00000202) ∧ (decode w = .ok .genCrc16 ↔ w = 0x00000203)
    ∧ (decode w = .ok .genCrc32 ↔ w = 0x00000204) ∧ (decode w = .ok .chkCsum ↔ w = 0x00000300)
    ∧ (decode w = .ok .chkCrc8 ↔ w = 0x00000301) ∧ (decode w = .ok .chkCrc10 ↔ w = 0x00000302)
    ∧ (decode w = .ok .chkCrc16 ↔ w = 0x00000303) ∧ (decode w = .ok .chkCrc32 ↔ w = 0x00000304)
    ∧ (∀ t : BitVec 7, decode w = .ok (.hpack t) ↔ w = 0x00000400 + t.setWidth 32)
    ∧ (decode w = .ok .hunpack ↔ w = 0x00000500)
    ∧ (∀ t : BitVec 7, decode w = .ok (.segStart t) ↔ w = 0x00000600 + t.setWidth 32)
    ∧ (decode w = .ok .segNext ↔ w = 0x00000700) ∧ (decode w = .ok .validate ↔ w = 0x00000800)

/-- 30_encoding.md R304: a few words written out bit by bit, RSV1 (20 bits), OP (4), RSV0 (1), TAG (7). -/
def Obligations.WrittenOutWordsDecode : Prop :=
  decode 0b00000000000000000000_0000_0_0000000 = .ok .nop
  ∧ decode 0b00000000000000000000_0001_0_0000000 = .ok .clr
  ∧ decode 0b00000000000000000000_0010_0_0000010 = .ok .genCrc10
  ∧ decode 0b00000000000000000000_0011_0_0000000 = .ok .chkCsum
  ∧ decode 0b00000000000000000000_0100_0_1010101 = .ok (.hpack 0b1010101)
  ∧ decode 0b00000000000000000000_0110_0_0000100 = .ok (.segStart 4)
  ∧ decode 0b00000000000000000000_1000_0_0000000 = .ok .validate

/-- 30_encoding.md R303, R305: which words are illegal, and which name an unsupported scheme. -/
def Obligations.DecodeErrorsAreThoseListed : Prop :=
  ∀ w : Word,
    (decode w = .error .illegalCommand ↔
      4096 ≤ w.toNat ∨ w.toNat / 128 % 2 = 1 ∨ 9 ≤ w.toNat / 256 % 16
        ∨ (w.toNat / 256 % 16 ∈ [0, 1, 5, 7, 8] ∧ w.toNat % 128 ≠ 0))
    ∧ (decode w = .error .unsupportedScheme ↔
        (0x205 ≤ w.toNat ∧ w.toNat ≤ 0x27F) ∨ (0x305 ≤ w.toNat ∧ w.toNat ≤ 0x37F))

/-! ## The host's accesses -/

/-- 10_state.md R109, 40_control.md R400: a host write of CMD whose word decodes runs exec of the command, on the
state with the access served and the word recorded; so does the word that withFetchWord places (log 1, log 18). -/
def Obligations.StepRunsDecodedCommand : Prop :=
  (∀ (s : State) (w : Word) (i : Instr) (rest : List BusEvent),
    s.pending = .access { off := 0x00, bytes := 4, op := .write w } :: rest → decode w = .ok i →
    step s = exec i { s with pending := rest, reply := none, cmd := w })
  ∧ ∀ (s : State) (nbits w : Nat) (i : Instr), decodeTableWord nbits w = some i →
      step (s.withFetchWord nbits w) = exec i { s with reply := none, cmd := BitVec.ofNat 32 (w % 2 ^ nbits) }

/-- 30_encoding.md R305, 60_exceptions.md R703: a word that is no command changes CMD's value, ERR, STICKY, and, for
a CHK word with an unknown tag, RESULT. -/
def Obligations.RejectedWordsChangeOnlyStatus : Prop :=
  ∀ (s : State) (w : Word) (e : DecodeError) (rest : List BusEvent),
    s.pending = .access { off := 0x00, bytes := 4, op := .write w } :: rest → decode w = .error e →
    step s = .next
      { s with
        pending := rest
        reply := none
        cmd := w
        status :=
          { s.status with
            err := if e = .illegalCommand then .illegalCommand else .unsupportedScheme
            sticky := true
            result := if e = .unsupportedScheme ∧ w.toNat / 256 % 16 = 3 then .none else s.status.result } }

/-- 10_state.md R109: CMD reads back the last word written to it, legal or not, and 0 after reset. -/
def Obligations.CmdReadsBackLastWordWritten : Prop :=
  (∀ (s t : State) (w : Word) (rest : List BusEvent),
    s.pending = .access { off := 0x00, bytes := 4, op := .write w } :: rest → step s = .next t →
    t.readReg .cmd = w)
  ∧ (∀ (s t : State) (a : HostAccess) (rest : List BusEvent),
      s.pending = .access a :: rest → (∀ w, a ≠ { off := 0x00, bytes := 4, op := .write w }) →
      step s = .next t → t.readReg .cmd = s.readReg .cmd)
  ∧ State.reset.readReg .cmd = 0

/-- 20_memory.md R204: an access is refused exactly when it is not 32 bits wide at a multiple of 4. -/
def Obligations.OnlyIllFormedAccessesAreRefused : Prop :=
  ∀ (s : State) (a : HostAccess) (rest : List BusEvent), s.pending = .access a :: rest →
    ((a.bytes ≠ 4 ∨ a.off.toNat % 4 ≠ 0)
        → step s = .refused .accessWidth ∨ step s = .refused .misalignedAccess)
    ∧ (a.bytes = 4 → a.off.toNat % 4 = 0 → ∀ r, step s ≠ .refused r)

/-- 20_memory.md R206, R209: a read of an unmapped offset returns 0, a write to one is ignored. -/
def Obligations.UnmappedOffsetsReadZeroAndIgnoreWrites : Prop :=
  ∀ (s : State) (off : BitVec 8) (rest : List BusEvent), off.toNat % 4 = 0 →
    (off = 0x38 ∨ off = 0x3C ∨ off = 0x5C ∨ 0x80 ≤ off.toNat) →
    (s.pending = .access { off := off, bytes := 4, op := .read } :: rest →
      step s = .next { s with pending := rest, reply := some 0 })
    ∧ (∀ v : Word, s.pending = .access { off := off, bytes := 4, op := .write v } :: rest →
        step s = .next { s with pending := rest, reply := none })

/-- 20_memory.md R207, 10_state.md R102, R134: every register stands in the map, and a host read at its offset there
returns its value and changes nothing but the reply, and BUF_IDX where the register is BUF_DATA. -/
def Obligations.HostReadsReturnTheRegister : Prop :=
  (∀ r : Reg, ∃ row ∈ registerMap, row.reg = r)
  ∧ ∀ (s : State) (row : MapRow) (rest : List BusEvent), row ∈ registerMap →
      s.pending = .access { off := row.off, bytes := 4, op := .read } :: rest →
      step s = .next
        { s with
          pending := rest
          reply := some (s.readReg row.reg)
          bufIdx := if row.reg = .bufData then s.bufIdx + 1 else s.bufIdx }

/-- 10_state.md R102, R134: after a host write, at its offset in the map, of a register other than CMD and BUF_DATA, an
RW register reads the value with its reserved bits cleared, an RO register is unchanged, and no other register
changes. -/
def Obligations.HostWritesFollowTheAccessKind : Prop :=
  ∀ (s : State) (row : MapRow) (v : Word) (rest : List BusEvent), row ∈ registerMap →
    row.reg ≠ .cmd → row.reg ≠ .bufData →
    s.pending = .access { off := row.off, bytes := 4, op := .write v } :: rest →
    ∃ t, step s = .next t
      ∧ t.readReg row.reg = (if row.rw then v &&& row.mask else s.readReg row.reg)
      ∧ (∀ r : Reg, r ≠ row.reg → r ≠ .bufData → t.readReg r = s.readReg r)
      ∧ t.latch = s.latch ∧ ∀ b : Buffer, t.buf b = s.buf b

/-- 10_state.md R102 to R110, R115 to R119, R122 to R130, R134, 60_exceptions.md R701: a host read of a register shows
the field the commands use, the fields of the composed views stand at their bits, and reserved bits read 0. -/
def Obligations.RegisterFieldsStandAtTheirBits : Prop :=
  (∀ s : State,
    s.readReg .cmd = s.cmd ∧ s.readReg .srcIp = s.srcIp ∧ s.readReg .dstIp = s.dstIp
    ∧ s.readReg .segPos = s.segPos ∧ s.readReg .segCount = s.segCount ∧ s.readReg .bufIdx = s.bufIdx
    ∧ s.readReg .payLen = s.payLen ∧ s.readReg .datLen = s.datLen ∧ s.readReg .txLen = s.txLen
    ∧ s.readReg .rxbLen = s.rxbLen ∧ s.readReg .rxfSrcIp = s.rxf.srcIp ∧ s.readReg .rxfDstIp = s.rxf.dstIp
    ∧ s.readReg .rxfRegion = s.rxf.region
    ∧ (s.readReg .frameSize).toNat = s.frameSize.toNat ∧ (s.readReg .srcPort).toNat = s.srcPort.toNat
    ∧ (s.readReg .dstPort).toNat = s.dstPort.toNat ∧ (s.readReg .hdrCtl).toNat = s.hdrCtl.toNat
    ∧ (s.readReg .segChunk).toNat = s.latch.chunk.toNat ∧ (s.readReg .bufSel).toNat = s.bufSel.toNat
    ∧ (s.readReg .rxfSrcPort).toNat = s.rxf.srcPort.toNat ∧ (s.readReg .rxfDstPort).toNat = s.rxf.dstPort.toNat
    ∧ s.rxf.code.toNat = (s.readReg .rxfCodeHi).toNat * 2 ^ 32 + (s.readReg .rxfCodeLo).toNat)
  ∧ (∀ s : State,
    (s.readReg .status).extractLsb' 0 3 = s.status.err.code ∧ (s.readReg .status).getLsbD 3 = s.status.sticky
    ∧ (s.readReg .status).extractLsb' 4 2 = s.status.result.code
    ∧ (s.readReg .status).getLsbD 8 = s.status.segActive ∧ (s.readReg .status).getLsbD 9 = s.status.segDone
    ∧ (s.readReg .status).getLsbD 10 = s.status.last
    ∧ s.code.toNat = (s.readReg .codeHi).toNat * 2 ^ 32 + (s.readReg .codeLo).toNat
    ∧ (s.readReg .segCfg).extractLsb' 0 7 = s.latch.tag ∧ (s.readReg .segCfg).extractLsb' 8 6 = s.latch.r
    ∧ (s.readReg .segCfg).extractLsb' 16 13 = s.latch.fsize
    ∧ (s.readReg .rxfCtl).extractLsb' 0 16 = s.rxf.len ∧ (s.readReg .rxfCtl).getLsbD 16 = s.rxf.last
    ∧ (s.readReg .rxfCtl).getLsbD 17 = s.rxf.known ∧ (s.readReg .rxfCtl).getLsbD 18 = s.rxf.lenErr
    ∧ (s.readReg .rxfCtl).extractLsb' 24 7 = s.rxf.tag)
  ∧ (∀ (s : State) (row : MapRow), row ∈ registerMap → s.readReg row.reg &&& ~~~ row.mask = 0)
  ∧ ErrorCode.none.code = 0 ∧ ErrorCode.unsupportedScheme.code = 1 ∧ ErrorCode.truncatedFrame.code = 2
  ∧ ErrorCode.frameTooSmall.code = 3 ∧ ErrorCode.illegalCommand.code = 4 ∧ ErrorCode.sequence.code = 5
  ∧ ErrorCode.length.code = 6
  ∧ CheckResult.none.code = 0 ∧ CheckResult.valid.code = 1 ∧ CheckResult.invalid.code = 2
  ∧ CheckResult.undetermined.code = 3

/-- 10_state.md R122, R123, R124, R132: a host read of BUF_DATA returns word BUF_IDX of the selected buffer, 0 out of
range, and advances BUF_IDX modulo 2^32. -/
def Obligations.BufDataReadReturnsTheWord : Prop :=
  ∀ (s : State) (rest : List BusEvent), s.pending = .access { off := 0x48, bytes := 4, op := .read } :: rest →
    ∃ v, step s = .next { s with pending := rest, reply := some v, bufIdx := s.bufIdx + 1 }
      ∧ ∀ b : Buffer, (b = .pay ↔ s.bufSel = 0) → (b = .dat ↔ s.bufSel = 1) → (b = .tx ↔ s.bufSel = 2)
          → (b = .rx ↔ s.bufSel = 3) →
        (∀ bits, s.bufIdx.toNat < capBits b / 32 → (s.buf b).readBits (32 * s.bufIdx.toNat) 32 = some bits →
          v.toNat = val bits)
        ∧ (capBits b / 32 ≤ s.bufIdx.toNat → v = 0)

/-- 10_state.md R123, R124, R132: a host write of BUF_DATA stores all 32 bits of the word BUF_IDX of the selected
buffer, unless it is out of range or the buffer is TX; it advances BUF_IDX and changes no length register. -/
def Obligations.BufDataWriteStoresTheWord : Prop :=
  ∀ (s : State) (v : Word) (rest : List BusEvent) (b : Buffer),
    s.pending = .access { off := 0x48, bytes := 4, op := .write v } :: rest →
    (b = .pay ↔ s.bufSel = 0) → (b = .dat ↔ s.bufSel = 1) → (b = .tx ↔ s.bufSel = 2) → (b = .rx ↔ s.bufSel = 3) →
    ∃ t, step s = .next t
      ∧ t = { s with pending := rest, reply := none, bufIdx := s.bufIdx + 1,
                     pay := t.pay, dat := t.dat, tx := s.tx, rx := t.rx }
      ∧ (∀ b' : Buffer, b' ≠ b → t.buf b' = s.buf b')
      ∧ (s.bufIdx.toNat < capBits b / 32 ∧ b ≠ .tx →
          (t.buf b).readBits (32 * s.bufIdx.toNat) 32 = some (bitsOf 32 v.toNat)
          ∧ ∀ a, a < 4 * s.bufIdx.toNat ∨ 4 * s.bufIdx.toNat + 4 ≤ a → (t.buf b).byte? a = (s.buf b).byte? a)
      ∧ (capBits b / 32 ≤ s.bufIdx.toNat ∨ b = .tx → t.buf b = s.buf b)

/-- 20_memory.md R201: host address BLOCK_BASE + off reaches offset off. That an access elsewhere never reaches the
FCB follows 93_implementation_defined.md "access outside the window". The queue is the model's choice (log 1), and so
is that the address of an access's first byte alone decides, whatever its width (log 2). -/
def Obligations.HostAddressesReachTheWindow : Prop :=
  Config.blockBase % 256 = 0
  ∧ (∀ (s : State) (off : BitVec 8) (bytes : Nat) (op : HostOp),
      s.hostIssue (Config.blockBase + off.toNat) bytes op
        = { s with pending := s.pending ++ [.access { off := off, bytes := bytes, op := op }] })
  ∧ ∀ (s : State) (addr bytes : Nat) (op : HostOp),
      addr < Config.blockBase ∨ Config.blockBase + 256 ≤ addr → s.hostIssue addr bytes op = s

/-- 40_control.md R401, 20_memory.md R211: no access the host has still to make reaches a command that runs. -/
def Obligations.CommandsIgnoreAccessesToCome : Prop :=
  ∀ (i : Instr) (s t : State) (later : List BusEvent), exec i s = .next t →
    exec i { s with pending := later } = .next { t with pending := later }

/-! ## The commands -/

/-- 40_control.md R420. -/
def Obligations.NopClearsOnlyErr : Prop :=
  decode 0x00000000 = .ok .nop
  ∧ (∀ w : Word, 0 < w.toNat → w.toNat < 128 → decode w = .error .illegalCommand)
  ∧ ∀ s : State, exec .nop s = .next { s with status := { s.status with err := .none } }

/-- 40_control.md R421: what CLR does, and that no other command clears STICKY, nor RESULT without an error. -/
def Obligations.ClrClearsErrStickyAndResult : Prop :=
  decode 0x00000100 = .ok .clr
  ∧ (∀ s : State,
      exec .clr s = .next { s with status := { s.status with err := .none, sticky := false, result := .none } })
  ∧ ∀ (i : Instr) (s t : State), i ≠ .clr → exec i s = .next t →
      (s.status.sticky = true → t.status.sticky = true)
      ∧ (t.status.err = .none → s.status.result ≠ .none → t.status.result ≠ .none)

/-- 42_checksum.md R510. -/
def Obligations.GenCsumWritesTheChecksum : Prop :=
  decode 0x00000200 = .ok .genCsum
  ∧ ∀ s : State,
      (65536 < s.datLen.toNat →
        exec .genCsum s = .next { s with status := { s.status with err := .length, sticky := true } })
      ∧ ∀ bits, s.datLen.toNat ≤ 65536 → s.dat.readBits 0 s.datLen.toNat = some bits →
          exec .genCsum s = .next
            { s with code := BitVec.ofNat 64 (csumGen bits).toNat, status := { s.status with err := .none } }

/-- 41_crc.md R465, R470, R471, R472, R473, with the polynomials of R450. -/
def Obligations.GenCrcWritesTheCode : Prop :=
  polyCrc8 = [true, true, true, false, true, false, true, false, true]
  ∧ Config.polyCrc10.length = 11 ∧ Config.polyCrc16.length = 17 ∧ Config.polyCrc32.length = 35
  ∧ ∀ (w : Word) (i : Instr) (g : Bits),
      (w, i, g) ∈ [(0x00000201, .genCrc8, polyCrc8), (0x00000202, .genCrc10, Config.polyCrc10),
        (0x00000203, .genCrc16, Config.polyCrc16), (0x00000204, .genCrc32, Config.polyCrc32)] →
      decode w = .ok i
      ∧ ∀ s : State,
          (65536 < s.datLen.toNat →
            exec i s = .next { s with status := { s.status with err := .length, sticky := true } })
          ∧ ∀ bits, s.datLen.toNat ≤ 65536 → s.dat.readBits 0 s.datLen.toNat = some bits →
              exec i s = .next
                { s with code := BitVec.ofNat 64 (val (crcGen bits g)), status := { s.status with err := .none } }

/-- 42_checksum.md R511. -/
def Obligations.ChkCsumComparesWithTheRecomputed : Prop :=
  decode 0x00000300 = .ok .chkCsum
  ∧ ∀ s : State,
      (65536 < s.datLen.toNat →
        exec .chkCsum s
          = .next { s with status := { s.status with err := .length, sticky := true, result := .none } })
      ∧ (s.datLen.toNat < 16 →
          exec .chkCsum s = .next
            { s with status := { s.status with err := .truncatedFrame, sticky := true, result := .none } })
      ∧ ∀ data code : Bits, code.length = 16 → s.datLen.toNat ≤ 65536 →
          s.dat.readBits 0 s.datLen.toNat = some (data ++ code) →
          exec .chkCsum s = .next
            { s with
              code := BitVec.ofNat 64 (csumGen data).toNat
              status :=
                { s.status with
                  result := if (csumGen data).toNat = val code then .valid else .invalid
                  err := .none } }

/-- 41_crc.md R466, R480, R481, R482, R483: the code widths 8, 10, 16, 34 are those of R452. -/
def Obligations.ChkCrcReportsTheRemainder : Prop :=
  ∀ (w : Word) (i : Instr) (g : Bits) (r : Nat),
    (w, i, g, r) ∈ [(0x00000301, .chkCrc8, polyCrc8, 8), (0x00000302, .chkCrc10, Config.polyCrc10, 10),
      (0x00000303, .chkCrc16, Config.polyCrc16, 16), (0x00000304, .chkCrc32, Config.polyCrc32, 34)] →
    decode w = .ok i
    ∧ ∀ s : State,
        (65536 < s.datLen.toNat →
          exec i s = .next { s with status := { s.status with err := .length, sticky := true, result := .none } })
        ∧ (s.datLen.toNat < r →
            exec i s = .next
              { s with status := { s.status with err := .truncatedFrame, sticky := true, result := .none } })
        ∧ ∀ f, r ≤ s.datLen.toNat → s.datLen.toNat ≤ 65536 → s.dat.readBits 0 s.datLen.toNat = some f →
            exec i s = .next
              { s with
                code := BitVec.ofNat 64 (val (crcRem f g))
                status :=
                  { s.status with
                    result := if crcRem f g = List.replicate r false then .valid else .invalid
                    err := .none } }

/-- 43_header.md R552, with the header of 30_encoding.md R321. -/
def Obligations.HpackWritesTheHeader : Prop :=
  ∀ (s : State) (tag : BitVec 7),
    decode (0x00000400 + tag.setWidth 32) = .ok (.hpack tag)
    ∧ ∃ t, exec (.hpack tag) s = .next t
        ∧ t = { s with tx := t.tx, txLen := 120, status := { s.status with err := .none } }
        ∧ t.tx.readBits 0 128 = some
            (bitsOf 32 s.srcIp.toNat ++ bitsOf 16 s.srcPort.toNat ++ bitsOf 32 s.dstIp.toNat
              ++ bitsOf 16 s.dstPort.toNat ++ bitsOf 16 (s.hdrCtl.toNat % 65536) ++ bitsOf 1 (s.hdrCtl.toNat / 65536)
              ++ bitsOf 7 tag.toNat ++ List.replicate 8 false)
        ∧ ∀ a, 16 ≤ a → t.tx.byte? a = s.tx.byte? a

/-- 43_header.md R559, R560: the errors of HUNPACK, and how it slices a frame by the fixed offsets, for a known and
for an unknown tag. -/
def Obligations.HunpackSlicesTheFrame : Prop :=
  decode 0x00000500 = .ok .hunpack
  ∧ (∀ s : State, 65536 < s.rxbLen.toNat →
      exec .hunpack s = .next { s with status := { s.status with err := .length, sticky := true } })
  ∧ ∀ (s : State) (f : Bits), s.rxbLen.toNat ≤ 65536 → s.rx.readBits 0 s.rxbLen.toNat = some f →
      (f.length < 128 →
        exec .hunpack s = .next { s with status := { s.status with err := .truncatedFrame, sticky := true } })
      ∧ (128 ≤ f.length → ∀ (known : Bool) (r : Nat),
          ((∃ sc : Scheme, sc.tag.toNat = val (slice f 113 120) ∧ known = true ∧ r = sc.codeWidth)
            ∨ (5 ≤ val (slice f 113 120) ∧ known = false ∧ r = 0)) →
          (f.length < 120 + r →
            exec .hunpack s = .next { s with status := { s.status with err := .truncatedFrame, sticky := true } })
          ∧ (120 + r ≤ f.length →
              ∃ t, exec .hunpack s = .next t
                ∧ t = { s with rxf := t.rxf, status := { s.status with err := .none } }
                ∧ t.rxf.srcIp.toNat = val (slice f 0 32) ∧ t.rxf.srcPort.toNat = val (slice f 32 48)
                ∧ t.rxf.dstIp.toNat = val (slice f 48 80) ∧ t.rxf.dstPort.toNat = val (slice f 80 96)
                ∧ t.rxf.len.toNat = val (slice f 96 112) ∧ slice f 112 113 = [t.rxf.last]
                ∧ t.rxf.tag.toNat = val (slice f 113 120) ∧ t.rxf.known = known
                ∧ t.rxf.region.toNat = f.length - 120 - r
                ∧ t.rxf.lenErr = decide (f.length - 120 - r < val (slice f 96 112))
                ∧ t.rxf.code.toNat = val (slice f (f.length - r) f.length)))

/-- 60_exceptions.md R703, R705: the errors of HUNPACK and VALIDATE. That a length below 128 is reported whether or
not the bits were written is the model's reading (log 8). -/
def Obligations.UnpackErrorsInOrder : Prop :=
  ∀ (i : Instr) (isCheck : Bool), (i, isCheck) ∈ [(.hunpack, false), (.validate, true)] → ∀ s : State,
    (65536 < s.rxbLen.toNat →
      exec i s = .next
        { s with status :=
            { s.status with err := .length, sticky := true
                            result := if isCheck then .none else s.status.result } })
    ∧ (s.rxbLen.toNat < 128 →
        exec i s = .next
          { s with status :=
              { s.status with err := .truncatedFrame, sticky := true
                              result := if isCheck then .none else s.status.result } })
    ∧ ∀ (f : Bits) (sc : Scheme), 128 ≤ s.rxbLen.toNat → s.rxbLen.toNat ≤ 65536 →
        s.rx.readBits 0 s.rxbLen.toNat = some f → sc.tag.toNat = val (slice f 113 120) →
        f.length < 120 + sc.codeWidth →
        exec i s = .next
          { s with status :=
              { s.status with err := .truncatedFrame, sticky := true
                              result := if isCheck then .none else s.status.result } }

/-- 44_segmenter.md R605, with the chunk width of R602: the errors of SEG.START in their order, and what a successful
one latches and writes. -/
def Obligations.SegStartLatchesTheSegmentation : Prop :=
  (∀ (s : State) (tag : BitVec 7),
    decode (0x00000600 + tag.setWidth 32) = .ok (.segStart tag)
    ∧ (5 ≤ tag.toNat →
        exec (.segStart tag) s
          = .next { s with status := { s.status with err := .unsupportedScheme, sticky := true } })
    ∧ (tag.toNat < 5 → Config.params.payCapBits < s.payLen.toNat →
        exec (.segStart tag) s = .next { s with status := { s.status with err := .length, sticky := true } }))
  ∧ ∀ (s : State) (sc : Scheme), s.payLen.toNat ≤ Config.params.payCapBits →
      (8 * s.frameSize.toNat ≤ 120 + sc.codeWidth →
        exec (.segStart sc.tag) s
          = .next { s with status := { s.status with err := .frameTooSmall, sticky := true } })
      ∧ (120 + sc.codeWidth < 8 * s.frameSize.toNat →
          ∃ t, exec (.segStart sc.tag) s = .next t
            ∧ t = { s with
                    latch := t.latch, segPos := 0, segCount := 0
                    status := { s.status with segActive := true, segDone := false, last := false, err := .none } }
            ∧ t.latch.tag = sc.tag ∧ t.latch.r.toNat = sc.codeWidth ∧ t.latch.fsize = s.frameSize
            ∧ t.latch.chunk.toNat = 8 * s.frameSize.toNat - 120 - sc.codeWidth
            ∧ t.latch.payLen = s.payLen ∧ t.latch.srcIp = s.srcIp ∧ t.latch.srcPort = s.srcPort
            ∧ t.latch.dstIp = s.dstIp ∧ t.latch.dstPort = s.dstPort
            ∧ (t.readReg .segChunk).toNat = 8 * s.frameSize.toNat - 120 - sc.codeWidth
            ∧ (t.readReg .segCfg).toNat
                = sc.tag.toNat + sc.codeWidth * 2 ^ 8 + s.frameSize.toNat * 2 ^ 16)

/-- 44_segmenter.md R607, R610, with the layout of 30_encoding.md R320: SEG.NEXT with no active segmentation is a
SEQUENCE error; with one, the frame it emits, and all else it writes. -/
def Obligations.SegNextEmitsTheWindow : Prop :=
  decode 0x00000700 = .ok .segNext
  ∧ (∀ s : State, s.status.segActive = false →
      exec .segNext s = .next { s with status := { s.status with err := .sequence, sticky := true } })
  ∧ ∀ (s : State) (sc : Scheme) (d : Bits), s.Inv → s.status.segActive = true → sc.tag = s.latch.tag →
      s.pay.readBits s.segPos.toNat (min s.latch.chunk.toNat (s.latch.payLen.toNat - s.segPos.toNat)) = some d →
      ∃ (t : State) (body : Bits) (last : Bool), exec .segNext s = .next t
        ∧ last = decide (s.latch.payLen.toNat ≤ s.segPos.toNat + s.latch.chunk.toNat)
        ∧ body = bitsOf 32 s.latch.srcIp.toNat ++ bitsOf 16 s.latch.srcPort.toNat ++ bitsOf 32 s.latch.dstIp.toNat
            ++ bitsOf 16 s.latch.dstPort.toNat ++ bitsOf 16 d.length ++ [last] ++ bitsOf 7 s.latch.tag.toNat
            ++ d ++ List.replicate (s.latch.chunk.toNat - d.length) false
        ∧ t = { s with
                tx := t.tx
                txLen := BitVec.ofNat 32 (8 * s.latch.fsize.toNat)
                code := BitVec.ofNat 64 (val (sc.generate body))
                segPos := s.segPos + BitVec.ofNat 32 d.length
                segCount := s.segCount + 1
                status := { s.status with segActive := !last, segDone := last, last := last, err := .none } }
        ∧ t.tx.readBits 0 (8 * s.latch.fsize.toNat) = some (body ++ sc.generate body)
        ∧ (∀ j, 8 * s.latch.fsize.toNat ≤ j → j < (8 * s.latch.fsize.toNat + 31) / 32 * 32 →
            t.tx.bit? j = some false)
        ∧ ∀ a, (8 * s.latch.fsize.toNat + 31) / 32 * 4 ≤ a → t.tx.byte? a = s.tx.byte? a

/-- 45_validator.md R651, with the checksum coverage of R652: the errors of VALIDATE; else it writes the RXF registers
exactly as HUNPACK, then checks the whole frame by its own tag, or is UNDETERMINED. -/
def Obligations.ValidateChecksTheWholeFrame : Prop :=
  decode 0x00000800 = .ok .validate
  ∧ (∀ s : State, 65536 < s.rxbLen.toNat →
      exec .validate s
        = .next { s with status := { s.status with err := .length, sticky := true, result := .none } })
  ∧ ∀ (s : State) (f : Bits), s.rxbLen.toNat ≤ 65536 → s.rx.readBits 0 s.rxbLen.toNat = some f →
      ((f.length < 128 ∨ ∃ sc : Scheme, sc.tag.toNat = val (slice f 113 120) ∧ f.length < 120 + sc.codeWidth) →
        exec .validate s = .next
          { s with status := { s.status with err := .truncatedFrame, sticky := true, result := .none } })
      ∧ (128 ≤ f.length →
          ∃ u : State, exec .hunpack s = .next u
            ∧ (5 ≤ val (slice f 113 120) →
                exec .validate s = .next
                  { s with rxf := u.rxf, status := { s.status with result := .undetermined, err := .none } })
            ∧ (val (slice f 113 120) = 0 → 136 ≤ f.length →
                exec .validate s = .next
                  { s with
                    rxf := u.rxf
                    code := BitVec.ofNat 64 (csumGen (slice f 0 (f.length - 16))).toNat
                    status :=
                      { s.status with
                        result :=
                          if (csumGen (slice f 0 (f.length - 16))).toNat = val (slice f (f.length - 16) f.length)
                          then .valid else .invalid
                        err := .none } })
            ∧ ∀ (sc : Scheme) (g : Bits), sc.tag.toNat = val (slice f 113 120) → sc.poly? = some g →
                120 + (g.length - 1) ≤ f.length →
                exec .validate s = .next
                  { s with
                    rxf := u.rxf
                    code := BitVec.ofNat 64 (val (crcRem f g))
                    status :=
                      { s.status with
                        result := if crcRem f g = List.replicate (g.length - 1) false then .valid else .invalid
                        err := .none } })

/-- 40_control.md R403, 60_exceptions.md R703: a command that ends with an error changed STATUS only. -/
def Obligations.ErrorsChangeOnlyStatus : Prop :=
  ∀ (i : Instr) (s t : State), exec i s = .next t → t.status.err ≠ .none →
    t = { s with
          status :=
            { s.status with
              err := t.status.err
              sticky := true
              result := if i ∈ [.chkCsum, .chkCrc8, .chkCrc10, .chkCrc16, .chkCrc32, .validate] then .none
                else s.status.result } }

/-- 10_state.md R131: no command writes PAY, DAT or RX, nor any register that the host configures. -/
def Obligations.CommandsKeepBuffersAndConfiguration : Prop :=
  ∀ (i : Instr) (s t : State), exec i s = .next t →
    t.pay = s.pay ∧ t.dat = s.dat ∧ t.rx = s.rx ∧ t.payLen = s.payLen ∧ t.datLen = s.datLen ∧ t.rxbLen = s.rxbLen
    ∧ t.frameSize = s.frameSize ∧ t.srcIp = s.srcIp ∧ t.srcPort = s.srcPort ∧ t.dstIp = s.dstIp
    ∧ t.dstPort = s.dstPort ∧ t.hdrCtl = s.hdrCtl ∧ t.bufSel = s.bufSel ∧ t.bufIdx = s.bufIdx ∧ t.cmd = s.cmd
    ∧ t.pending = s.pending ∧ t.reply = s.reply ∧ t.epoch = s.epoch

/-- 70_reset_and_hazards.md R813, 10_state.md R113, R114, R120, R126: each result register is written by its own
commands only. -/
def Obligations.ResultsHaveTheirOwnWriters : Prop :=
  ∀ (i : Instr) (s t : State), exec i s = .next t →
    ((∀ tag, i ≠ .hpack tag) → i ≠ .segNext →
      (∀ a, t.tx.byte? a = s.tx.byte? a) ∧ t.txLen = s.txLen)
    ∧ (i ∈ [.nop, .clr, .hunpack] ∨ (∃ tag, i = .hpack tag ∨ i = .segStart tag) → t.code = s.code)
    ∧ (i ≠ .hunpack → i ≠ .validate → t.rxf = s.rxf)
    ∧ ((∀ tag, i ≠ .segStart tag) → t.latch = s.latch)
    ∧ ((∀ tag, i ≠ .segStart tag) → i ≠ .segNext →
        t.segPos = s.segPos ∧ t.segCount = s.segCount ∧ t.status.segActive = s.status.segActive
        ∧ t.status.segDone = s.status.segDone ∧ t.status.last = s.status.last)
    ∧ (i ∉ [.clr, .chkCsum, .chkCrc8, .chkCrc10, .chkCrc16, .chkCrc32, .validate] →
        t.status.result = s.status.result)

/-- 10_state.md R112: STICKY is set by every error, cleared by CLR, and kept by every other successful command. -/
def Obligations.StickyRecordsErrorsUntilClr : Prop :=
  ∀ (i : Instr) (s t : State), exec i s = .next t →
    (t.status.err ≠ .none → t.status.sticky = true)
    ∧ (i = .clr → t.status.sticky = false)
    ∧ (i ≠ .clr → t.status.err = .none → t.status.sticky = s.status.sticky)

/-- 40_control.md R405: a command that consumes a buffer bit below the length that the host has not written faults.
That HUNPACK and VALIDATE consume every RX bit below RXB_LEN (43_header.md R560, 45_validator.md R651) is the model's
reading (log 9). -/
def Obligations.UnwrittenOperandsFault : Prop :=
  (∀ (i : Instr) (least : Nat) (s : State),
    (i, least) ∈ [(.genCsum, 0), (.genCrc8, 0), (.genCrc10, 0), (.genCrc16, 0), (.genCrc32, 0), (.chkCsum, 16),
      (.chkCrc8, 8), (.chkCrc10, 10), (.chkCrc16, 16), (.chkCrc32, 34)] →
    least ≤ s.datLen.toNat → s.datLen.toNat ≤ 65536 →
    (∃ j < s.datLen.toNat, s.dat.bit? j = none) → exec i s = .fault (.unwrittenBits .dat))
  ∧ (∀ (i : Instr) (s : State), i = .hunpack ∨ i = .validate → 128 ≤ s.rxbLen.toNat → s.rxbLen.toNat ≤ 65536 →
      (∃ j < s.rxbLen.toNat, s.rx.bit? j = none) → exec i s = .fault (.unwrittenBits .rx))
  ∧ ∀ s : State, s.status.segActive = true →
      (∃ j, s.segPos.toNat ≤ j
        ∧ j < s.segPos.toNat + min s.latch.chunk.toNat (s.latch.payLen.toNat - s.segPos.toNat)
        ∧ s.pay.bit? j = none) →
      exec .segNext s = .fault (.unwrittenBits .pay)

/-- 40_control.md R402: every command completes, in every state of the invariant, once the bits it consumes are
written. -/
def Obligations.CommandsCompleteOnWrittenOperands : Prop :=
  ∀ (i : Instr) (s : State), s.Inv → s.operandsWritten i = true → ∃ t, exec i s = .next t

/-- 10_state.md R135: no command but SEG.NEXT reads a flag of STATUS, and SEG.NEXT reads SEG_ACTIVE only; none reads an
RXF register. Whatever the flags were before, each is left as it was or takes the value the first run wrote. -/
def Obligations.FlagsAreNoInputs : Prop :=
  (∀ (i : Instr) (s t : State), exec i s = .next t →
    ∃ sticky result active done last : Bool, ∀ f : Status, (i = .segNext → f.segActive = s.status.segActive) →
      exec i { s with status := f } = .next
        { t with
          status :=
            { err := t.status.err
              sticky := if sticky then t.status.sticky else f.sticky
              result := if result then t.status.result else f.result
              segActive := if active then t.status.segActive else f.segActive
              segDone := if done then t.status.segDone else f.segDone
              last := if last then t.status.last else f.last } })
  ∧ ∀ (i : Instr) (s t : State), exec i s = .next t →
      ∃ written : Bool, ∀ u : RxFields,
        exec i { s with rxf := u } = .next { t with rxf := if written then t.rxf else u }

/-- 70_reset_and_hazards.md R810: writing FRAME_SIZE, an address register or PAY_LEN has no effect on the
segmentation under way. -/
def Obligations.LatchedRegistersDoNotReachTheSegmentation : Prop :=
  ∀ (s t : State) (fs : BitVec 13) (a b : Word) (p q : BitVec 16) (n : Word), exec .segNext s = .next t →
    exec .segNext { s with frameSize := fs, srcIp := a, srcPort := p, dstIp := b, dstPort := q, payLen := n }
      = .next { t with frameSize := fs, srcIp := a, srcPort := p, dstIp := b, dstPort := q, payLen := n }

/-- 10_state.md R125, 20_memory.md R208, 70_reset_and_hazards.md R811, R815: a command's outcome depends on the buffers
only through the bits it consumes. GEN and CHK consume DAT below DAT_LEN, HUNPACK and VALIDATE RX below RXB_LEN, an
active SEG.NEXT the next window of PAY, the others nothing, and none reads TX. The TX bytes it writes are the first
`n`, the same whatever TX held. -/
def Obligations.CommandsReadOnlyTheBitsTheyConsume : Prop :=
  ∀ (i : Instr) (s t : State), exec i s = .next t →
    ∃ n : Nat, ∀ p d x r : Memory,
      (i = .segNext → s.status.segActive = true →
        p.readBits s.segPos.toNat (min s.latch.chunk.toNat (s.latch.payLen.toNat - s.segPos.toNat))
          = s.pay.readBits s.segPos.toNat (min s.latch.chunk.toNat (s.latch.payLen.toNat - s.segPos.toNat))) →
      (i ∈ [.genCsum, .genCrc8, .genCrc10, .genCrc16, .genCrc32, .chkCsum, .chkCrc8, .chkCrc10, .chkCrc16, .chkCrc32] →
        s.datLen.toNat ≤ 65536 → d.readBits 0 s.datLen.toNat = s.dat.readBits 0 s.datLen.toNat) →
      (i ∈ [.hunpack, .validate] →
        s.rxbLen.toNat ≤ 65536 → r.readBits 0 s.rxbLen.toNat = s.rx.readBits 0 s.rxbLen.toNat) →
      ∃ t', exec i { s with pay := p, dat := d, tx := x, rx := r } = .next t'
        ∧ t' = { t with pay := p, dat := d, tx := t'.tx, rx := r }
        ∧ (∀ a < n, t'.tx.byte? a = t.tx.byte? a)
        ∧ ∀ a, n ≤ a → t'.tx.byte? a = x.byte? a

/-! ## The codes -/

/-- 41_crc.md R453, 00_scope.md R6: with a leading 1 the division leaves the divided positions 0. -/
def Obligations.DivisionClearsTheDividedPositions : Prop :=
  ∀ (L : Nat) (w g : Bits), g.head? = some true → w.length = L + (g.length - 1) →
    (crcDiv L w g).length = w.length ∧ (crcDiv L w g).take L = List.replicate L false

/-- 41_crc.md R458: the division computes remainders of polynomials over GF(2). -/
def Obligations.CrcIsThePolynomialRemainder : Prop :=
  ∀ (s g : Bits), g.head? = some true →
    gf2Poly (crcGen s g) = (gf2Poly s * Polynomial.X ^ (g.length - 1)) %ₘ gf2Poly g
    ∧ (g.length - 1 ≤ s.length → gf2Poly (crcRem s g) = gf2Poly s %ₘ gf2Poly g)

/-- 41_crc.md R459: a freshly generated code always validates. -/
def Obligations.FreshCrcValidates : Prop :=
  ∀ (s g : Bits), g.head? = some true → crcOk (s ++ crcGen s g) g = true

/-- 41_crc.md R460: linearity, and the code of zeros. -/
def Obligations.CrcIsLinear : Prop :=
  (∀ (a b g : Bits), a.length = b.length → crcGen (xorBits a b) g = xorBits (crcGen a g) (crcGen b g))
  ∧ ∀ (k : Nat) (g : Bits), crcGen (List.replicate k false) g = List.replicate (g.length - 1) false

/-- 41_crc.md R462: the bit-serial register computes the same code. -/
def Obligations.SerialRegisterComputesTheCrc : Prop :=
  ∀ (s g : Bits), g.head? = some true →
    s.foldl
      (fun (r : Nat) (d : Bool) =>
        let shifted := (r <<< 1) &&& (2 ^ (g.length - 1) - 1)
        if r.testBit (g.length - 2) ^^ d then shifted ^^^ val (g.drop 1) else shifted) 0
      = val (crcGen s g)

/-- 42_checksum.md R503, R504, R505: the sum stays 16 bits wide at each step, the code is its complement, and zeros
give 0xFFFF. -/
def Obligations.ChecksumSumStaysSixteenBits : Prop :=
  (∀ sum word : Nat, sum ≤ 0xFFFF → word ≤ 0xFFFF → csumStep sum word ≤ 0xFFFF)
  ∧ (∀ s : Bits, csumSum s ≤ 0xFFFF ∧ (csumGen s).toNat = 0xFFFF - csumSum s)
  ∧ ∀ k : Nat, csumGen (List.replicate k false) = 0xFFFF

/-- 42_checksum.md R507: a freshly generated checksum validates. -/
def Obligations.FreshChecksumValidates : Prop :=
  ∀ s : Bits, csumOk (s ++ bitsOf 16 (csumGen s).toNat) = true

/-- 42_checksum.md R508: the order of the words, and leading zero words, do not matter; the code is 0 exactly for the
sum 0xFFFF, and the sum is 0 only when every word is. -/
def Obligations.ChecksumIgnoresWordOrder : Prop :=
  (∀ ws vs : List Bits, ws.Perm vs → (∀ w ∈ ws, w.length = 16) → csumGen ws.flatten = csumGen vs.flatten)
  ∧ (∀ (k : Nat) (s : Bits), csumGen (List.replicate (16 * k) false ++ s) = csumGen s)
  ∧ ∀ s : Bits, (csumGen s = 0 ↔ csumSum s = 0xFFFF) ∧ (csumSum s = 0 ↔ ∀ b ∈ s, b = false)

/-! ## Frames -/

/-- 45_validator.md R654: one flipped bit of a VALID frame, outside the tag field, is always detected. POLY_CRC8 has six
1 bits by the literal of 41_crc.md R450, where R654's aside says five (log 20). -/
def Obligations.SingleBitFlipIsDetected : Prop :=
  polyCrc8.count true = 6
  ∧ ∀ (s s' t : State) (f g : Bits) (sc : Scheme) (i : Nat),
      s.rx.readBits 0 s.rxbLen.toNat = some f → frameTag f = .known sc → sc.poly? = some g → 2 ≤ g.count true →
      exec .validate s = .next t → t.status.result = .valid → t.status.err = .none →
      i < f.length → i < 113 ∨ 120 ≤ i →
      s'.rxbLen = s.rxbLen → s'.rx.readBits 0 s.rxbLen.toNat = some (flipRun f i 1) →
      ∃ t', exec .validate s' = .next t' ∧ t'.status.result = .invalid

/-- 45_validator.md R655: a flipped run of at most R bits, outside the tag field, is always detected when the
polynomial's last bit is 1. -/
def Obligations.BurstIsDetected : Prop :=
  polyCrc8.getLast? = some true
  ∧ ∀ (s s' t : State) (f g : Bits) (sc : Scheme) (i b : Nat),
      s.rx.readBits 0 s.rxbLen.toNat = some f → frameTag f = .known sc → sc.poly? = some g →
      g.getLast? = some true →
      exec .validate s = .next t → t.status.result = .valid → t.status.err = .none →
      1 ≤ b → b ≤ sc.codeWidth → i + b ≤ f.length → i + b ≤ 113 ∨ 120 ≤ i →
      s'.rxbLen = s.rxbLen → s'.rx.readBits 0 s.rxbLen.toNat = some (flipRun f i b) →
      ∃ t', exec .validate s' = .next t' ∧ t'.status.result = .invalid

/-- 43_header.md R564: unpacking a packed frame gives back its fields, its region's width and its code. -/
def Obligations.UnpackInvertsPacking : Prop :=
  ∀ (srcIp dstIp : Word) (srcPort dstPort len : BitVec 16) (last : Bool) (sc : Scheme) (region code : Bits),
    code.length = sc.codeWidth → region.length ≤ 65536 →
    ∃ u, unpack (header srcIp srcPort dstIp dstPort len last sc.tag ++ region ++ code) = some u
      ∧ u.srcIp = srcIp ∧ u.srcPort = srcPort ∧ u.dstIp = dstIp ∧ u.dstPort = dstPort ∧ u.len = len
      ∧ u.last = last ∧ u.tag = sc.tag ∧ u.known = true ∧ u.region.toNat = region.length
      ∧ u.lenErr = decide (region.length < len.toNat) ∧ u.code.toNat = val code

/-- 44_segmenter.md R603: for each scheme the code width, the smallest frame size accepted and its chunk width, the
chunk width of the largest frame size, and the bound on every accepted one. -/
def Obligations.AcceptedChunksFitTheLengthField : Prop :=
  ∀ (sc : Scheme) (r least : Nat) (atLeast atMost : Int),
    (sc, r, least, atLeast, atMost) ∈ [(.checksum, 16, 18, 8, 65392), (.crc8, 8, 17, 8, 65400),
      (.crc10, 10, 17, 6, 65398), (.crc16, 16, 18, 8, 65392), (.crc32, 34, 20, 6, 65374)] →
    sc.codeWidth = r ∧ chunkBits least sc = atLeast ∧ chunkBits 8191 sc = atMost
    ∧ ∀ fsize : Nat, (0 < chunkBits fsize sc ↔ least ≤ fsize)
        ∧ (fsize ≤ 8191 → chunkBits fsize sc ≤ 65400)

/-- 44_segmenter.md R614: an emitted frame, received unmodified, validates; and its length field fits its region
(43_header.md R562). -/
def Obligations.EmittedFrameValidates : Prop :=
  ∀ s t u : State, s.Inv → s.status.segActive = true → exec .segNext s = .next t →
    u.rxbLen = t.txLen → u.rx.readBits 0 u.rxbLen.toNat = t.tx.readBits 0 t.txLen.toNat →
    ∃ v, exec .validate u = .next v ∧ v.status.result = .valid ∧ v.status.err = .none ∧ v.rxf.known = true
      ∧ v.rxf.lenErr = false ∧ v.rxf.last = t.status.last

/-- 44_segmenter.md R612, with the windows of R604 and R606: a segmentation emits exactly N frames of 8·L_FSIZE bits,
frame `i` carries window `i`, only the last has isLast, and one more SEG.NEXT raises SEQUENCE. -/
def Obligations.SegmentationEmitsItsWindows : Prop :=
  ∀ (s t : State) (tag : BitVec 7) (p : Bits) (P C N : Nat),
    exec (.segStart tag) s = .next t → t.status.err = .none → s.pay.readBits 0 s.payLen.toNat = some p →
    P = s.payLen.toNat → C = t.latch.chunk.toNat → N = max 1 ((P + C - 1) / C) →
    ∃ (fs : List Bits) (u : State), emitFrames N t = some (fs, u) ∧ fs.length = N
      ∧ (∀ (i : Nat) (f : Bits), fs[i]? = some f →
          f.length = 8 * s.frameSize.toNat
          ∧ val (slice f 96 112) = min ((i + 1) * C) P - i * C
          ∧ frameData f = slice p (i * C) (min ((i + 1) * C) P)
          ∧ slice f 112 113 = [decide (i + 1 = N)])
      ∧ u.status.segDone = true ∧ u.status.segActive = false ∧ u.segCount.toNat = N
      ∧ exec .segNext u = .next { u with status := { u.status with err := .sequence, sticky := true } }

/-- 44_segmenter.md R613: the data of the emitted frames, in order, is the payload. -/
def Obligations.SegmentationLosesNoBit : Prop :=
  ∀ (s t : State) (tag : BitVec 7) (p : Bits),
    exec (.segStart tag) s = .next t → t.status.err = .none → s.pay.readBits 0 s.payLen.toNat = some p →
    ∃ (fs : List Bits) (u : State), emitFrames t.latch.frameCount t = some (fs, u) ∧ u.status.segDone = true
      ∧ (fs.map frameData).flatten = p
end

