-- ==== Sys2Proof/Laws/Bits.lean ====
section
/-! SUPPORT. The small laws of bit-strings and numbers: lengths, values, and the round trips between them. -/
namespace Sys2Proof

theorem foldl_val (s : Bits) (acc : Nat) :
    s.foldl (fun a b => 2 * a + b.toNat) acc = acc * 2 ^ s.length + val s := by
  induction s generalizing acc with
  | nil => simp [val]
  | cons b s ih =>
    have h0 : val (b :: s) = s.foldl (fun a b => 2 * a + b.toNat) (2 * 0 + b.toNat) := rfl
    rw [List.foldl_cons, ih, h0, ih, List.length_cons]; ring

@[simp] theorem val_nil : val [] = 0 := rfl

theorem val_cons (b : Bool) (s : Bits) : val (b :: s) = b.toNat * 2 ^ s.length + val s := by
  have h0 : val (b :: s) = s.foldl (fun a b => 2 * a + b.toNat) (2 * 0 + b.toNat) := rfl
  rw [h0, foldl_val]; simp

theorem val_append (s t : Bits) : val (s ++ t) = val s * 2 ^ t.length + val t := by
  rw [val, List.foldl_append, foldl_val]; rfl

theorem val_lt (s : Bits) : val s < 2 ^ s.length := by
  induction s with
  | nil => simp
  | cons b s ih => rw [val_cons, List.length_cons, pow_succ]; cases b <;> simp <;> omega

@[simp] theorem length_zeros (k : Nat) : (zeros k).length = k := List.length_replicate

@[simp] theorem val_zeros (k : Nat) : val (zeros k) = 0 := by
  induction k with
  | zero => rfl
  | succ k ih => simp only [zeros, List.replicate_succ, val_cons] at *; simp [ih]

@[simp] theorem length_bitsOf (n v : Nat) : (bitsOf n v).length = n := by
  induction n with
  | zero => rfl
  | succ n ih => simp [bitsOf, ih]

theorem testBit_toNat_mul_add_mod (n v : Nat) : (v.testBit n).toNat * 2 ^ n + v % 2 ^ n = v % 2 ^ (n + 1) := by
  rw [pow_succ, Nat.mod_mul, Nat.testBit_eq_decide_div_mod_eq]
  rcases Nat.mod_two_eq_zero_or_one (v / 2 ^ n) with h | h <;> simp [h]; omega

theorem val_bitsOf (n v : Nat) : val (bitsOf n v) = v % 2 ^ n := by
  induction n with
  | zero => simp [bitsOf, Nat.mod_one]
  | succ n ih => rw [bitsOf, val_cons, ih, length_bitsOf, testBit_toNat_mul_add_mod]

theorem val_bitsOf_toNat {n : Nat} (v : BitVec n) : val (bitsOf n v.toNat) = v.toNat := by
  rw [val_bitsOf, Nat.mod_eq_of_lt v.isLt]

/-- A bit-string is determined by its length and its value. -/
theorem val_inj {s t : Bits} (hl : s.length = t.length) (hv : val s = val t) : s = t := by
  induction s generalizing t with
  | nil => exact (List.eq_nil_of_length_eq_zero hl.symm).symm
  | cons a s ih =>
    obtain _ | ⟨b, t⟩ := t
    · simp at hl
    · have hl' : s.length = t.length := by simpa using hl
      rw [val_cons, val_cons, hl'] at hv
      have hs := val_lt s
      have ht := val_lt t
      rw [hl'] at hs
      cases a <;> cases b <;> simp at hv
      · rw [ih hl' hv]
      · omega
      · omega
      · rw [ih hl' hv]

theorem bitsOf_val (s : Bits) : bitsOf s.length (val s) = s :=
  val_inj (length_bitsOf _ _) (by rw [val_bitsOf, Nat.mod_eq_of_lt (val_lt s)])

theorem length_slice (s : Bits) (a b : Nat) : (slice s a b).length = min (b - a) (s.length - a) := by
  simp [slice]

@[simp] theorem length_xorBits (s t : Bits) : (xorBits s t).length = min s.length t.length := by
  simp [xorBits]

@[simp] theorem length_packBytes (n : Nat) (s : Bits) : (packBytes n s).length = n := by
  induction n generalizing s with
  | zero => rfl
  | succ n ih => simp [packBytes, ih]

@[simp] theorem length_wordBytes (w : Word) : (wordBytes w).length = 4 := rfl

/-- The most significant bit first: bit `j` of the byte of a bit-string of 8 bits is its bit `j`. -/
theorem getMsbD_ofNat_val (s : Bits) (h : s.length = 8) (j : Nat) (hj : j < 8) :
    (BitVec.ofNat 8 (val s)).getMsbD j = s.getD j false := by
  match s, h with
  | [a, b, c, d, e, f, g, i], _ =>
    have key : ∀ (a b c d e f g i : Bool) (j : Fin 8),
        (BitVec.ofNat 8 (val [a, b, c, d, e, f, g, i])).getMsbD j.val = [a, b, c, d, e, f, g, i].getD j.val false := by
      decide
    exact key a b c d e f g i ⟨j, hj⟩

/-- The bytes of a bit-string hold its bits in order (00_scope.md R9). -/
theorem packBytes_getMsbD (n : Nat) (s : Bits) (h : s.length = 8 * n) (j : Nat) (hj : j < 8 * n) :
    ((packBytes n s)[j / 8]?.map (fun b => b.getMsbD (j % 8))) = s[j]? := by
  induction n generalizing s j with
  | zero => omega
  | succ n ih =>
    rcases Nat.lt_or_ge j 8 with hj8 | hj8
    · have h8 : (s.take 8).length = 8 := by rw [List.length_take]; omega
      rw [Nat.div_eq_of_lt hj8, Nat.mod_eq_of_lt hj8, packBytes, List.getElem?_cons_zero, Option.map_some,
        getMsbD_ofNat_val _ h8 _ hj8, List.getD_eq_getElem?_getD, List.getElem?_take, if_pos hj8,
        List.getElem?_eq_getElem (by omega)]
      rfl
    · have hd : j / 8 = (j - 8) / 8 + 1 := by omega
      have hm : j % 8 = (j - 8) % 8 := by omega
      have := ih (s.drop 8) (by rw [List.length_drop]; omega) (j - 8) (by omega)
      rw [hd, hm, packBytes, List.getElem?_cons_succ, this, List.getElem?_drop]
      congr 1; omega

end Sys2Proof
end

