-- ==== Sys2Proof/Laws/Codes.lean ====
section
/-! SUPPORT. The lengths and bounds of the redundancy codes. -/
namespace Sys2Proof

theorem length_cons_bitsOf (b : Bool) (n v : Nat) : (b :: bitsOf n v).length = n + 1 := by simp
theorem length_polyCrc8 : polyCrc8.length = 9 := rfl
theorem length_polyCrc10 : Config.polyCrc10.length = 11 := length_cons_bitsOf _ _ _
theorem length_polyCrc16 : Config.polyCrc16.length = 17 := length_cons_bitsOf _ _ _
theorem length_polyCrc32 : Config.polyCrc32.length = 35 := length_cons_bitsOf _ _ _

theorem payCapWords_bounds : 2048 ≤ Config.payCapWords ∧ Config.payCapWords < 134217728 := by
  unfold Config.payCapWords
  generalize Config.payExtraWords = x
  omega

/-- Every CRC polynomial has a leading 1 (00_scope.md R6). -/
theorem Scheme.poly?_head {sc : Scheme} {g : Bits} (h : sc.poly? = some g) : g.head? = some true := by
  cases sc <;> simp only [Scheme.poly?, Option.some.injEq, reduceCtorEq] at h <;> subst h <;> rfl

theorem codeWidth_checksum : Scheme.checksum.codeWidth = 16 := rfl
theorem codeWidth_crc8 : Scheme.crc8.codeWidth = 8 := rfl
theorem codeWidth_crc10 : Scheme.crc10.codeWidth = 10 :=
  congrArg (· - 1) length_polyCrc10
theorem codeWidth_crc16 : Scheme.crc16.codeWidth = 16 :=
  congrArg (· - 1) length_polyCrc16
theorem codeWidth_crc32 : Scheme.crc32.codeWidth = 34 :=
  congrArg (· - 1) length_polyCrc32

theorem codeWidth_bounds (sc : Scheme) : 8 ≤ sc.codeWidth ∧ sc.codeWidth ≤ 34 := by
  cases sc <;> simp [codeWidth_checksum, codeWidth_crc8, codeWidth_crc10, codeWidth_crc16, codeWidth_crc32]

@[simp] theorem length_xorInto (w g : Bits) : (xorInto w g).length = w.length := by
  induction g generalizing w with
  | nil => cases w <;> rfl
  | cons b g ih =>
    cases w with
    | nil => rfl
    | cons a w => simp [xorInto, ih]

/-- The division keeps the length of its buffer (41_crc.md R453). -/
@[simp] theorem length_crcDiv (L : Nat) (w g : Bits) : (crcDiv L w g).length = w.length := by
  induction L generalizing w with
  | zero => rfl
  | succ L ih =>
    have hl : (if w.headD false = true then xorInto w g else w).length = w.length := by split <;> simp
    rw [crcDiv]
    split
    · rename_i h; rw [h] at hl; simpa using hl
    · rename_i b rest h; rw [h] at hl; simpa [ih] using hl

@[simp] theorem length_crcGen (s g : Bits) : (crcGen s g).length = g.length - 1 := by simp [crcGen]

theorem length_crcRem {f g : Bits} (h : g.length - 1 ≤ f.length) : (crcRem f g).length = g.length - 1 := by
  simp [crcRem]; omega

/-- A code has its scheme's width (30_encoding.md R310, R323). -/
@[simp] theorem length_generate (sc : Scheme) (s : Bits) : (sc.generate s).length = sc.codeWidth := by
  cases sc <;> simp [Scheme.generate, Scheme.codeWidth, Scheme.poly?]

theorem val_generate_lt (sc : Scheme) (s : Bits) : val (sc.generate s) < 2 ^ 34 := by
  refine lt_of_lt_of_le (val_lt _) ?_
  rw [length_generate]
  exact Nat.pow_le_pow_right (by decide) (codeWidth_bounds sc).2

theorem checkCode_lt {sc : Scheme} {f : Bits} (h : sc.codeWidth ≤ f.length) : sc.checkCode f < 2 ^ 34 := by
  simp only [Scheme.checkCode, Scheme.codeWidth] at *
  have hw := (codeWidth_bounds sc).2
  simp only [Scheme.codeWidth] at hw
  split
  · exact lt_trans (BitVec.isLt _) (by decide)
  · rename_i g hg
    rw [hg] at h hw
    refine lt_of_lt_of_le (val_lt _) ?_
    rw [length_crcRem h]
    exact Nat.pow_le_pow_right (by decide) hw

/-- The tag table and its inverse (30_encoding.md R310, R311). -/
@[simp] theorem decodeTag_tag (sc : Scheme) : decodeTag sc.tag = .known sc := by cases sc <;> rfl

/-- Decoding a tag never fails: it is a known scheme's tag, or is kept raw (30_encoding.md R311). -/
theorem decodeTag_cases (t : BitVec 7) :
    (∃ sc : Scheme, t = sc.tag ∧ decodeTag t = .known sc) ∨ (4 < t.toNat ∧ decodeTag t = .unknown t) := by
  unfold decodeTag
  split
  · exact .inl ⟨.checksum, BitVec.eq_of_toNat_eq (by assumption), rfl⟩
  · exact .inl ⟨.crc8, BitVec.eq_of_toNat_eq (by assumption), rfl⟩
  · exact .inl ⟨.crc10, BitVec.eq_of_toNat_eq (by assumption), rfl⟩
  · exact .inl ⟨.crc16, BitVec.eq_of_toNat_eq (by assumption), rfl⟩
  · exact .inl ⟨.crc32, BitVec.eq_of_toNat_eq (by assumption), rfl⟩
  · refine .inr ⟨?_, rfl⟩
    by_contra h
    interval_cases t.toNat <;> simp_all

end Sys2Proof
end

