-- ==== Sys2Proof/Laws/Decode.lean ====
section
/-! SUPPORT. The fields of an encoded command word (30_encoding.md R300). -/
namespace Sys2Proof

/-- A word's fields are read at their places, whatever stands beside them. -/
theorem cmdWord_getLsbD (op : BitVec 4) (t : BitVec 7) (i : Nat) :
    (cmdWord op t).getLsbD i
      = if i < 7 then t.getLsbD i else if i = 7 then false else if i < 12 then op.getLsbD (i - 8) else false := by
  rw [show cmdWord op t = (0#20 ++ op ++ 0#1 ++ t : BitVec (20 + 4 + 1 + 7)) from rfl]
  simp only [BitVec.getLsbD_append, BitVec.getLsbD_zero]
  split_ifs <;> first | rfl | omega

@[simp] theorem cmdRsv1_cmdWord (op : BitVec 4) (t : BitVec 7) : cmdRsv1 (cmdWord op t) = 0 := by
  apply BitVec.eq_of_getLsbD_eq
  intro i hi
  rw [cmdRsv1, BitVec.getLsbD_extractLsb', cmdWord_getLsbD, if_neg (by omega), if_neg (by omega),
    if_neg (by omega)]
  simp

@[simp] theorem cmdRsv0_cmdWord (op : BitVec 4) (t : BitVec 7) : cmdRsv0 (cmdWord op t) = 0 := by
  apply BitVec.eq_of_getLsbD_eq
  intro i hi
  rw [cmdRsv0, BitVec.getLsbD_extractLsb', cmdWord_getLsbD, if_neg (by omega), if_pos (by omega)]
  simp

@[simp] theorem cmdOp_cmdWord (op : BitVec 4) (t : BitVec 7) : cmdOp (cmdWord op t) = op := by
  apply BitVec.eq_of_getLsbD_eq
  intro i hi
  rw [cmdOp, BitVec.getLsbD_extractLsb', cmdWord_getLsbD, if_neg (by omega), if_neg (by omega),
    if_pos (by omega)]
  simp [hi]

@[simp] theorem cmdTag_cmdWord (op : BitVec 4) (t : BitVec 7) : cmdTag (cmdWord op t) = t := by
  apply BitVec.eq_of_getLsbD_eq
  intro i hi
  rw [cmdTag, BitVec.getLsbD_extractLsb', cmdWord_getLsbD, if_pos (by omega)]
  simp [hi]

/-- What decoding can answer: a command, or one of the two errors under its condition (30_encoding.md R303). -/
theorem decode_of_reserved {w : Word} (h : cmdRsv1 w ≠ 0 ∨ cmdRsv0 w ≠ 0) :
    decode w = .error .illegalCommand := if_pos h

theorem decode_of_clear {w : Word} (h1 : cmdRsv1 w = 0) (h0 : cmdRsv0 w = 0) :
    decode w = decodeOp (cmdOp w) (cmdTag w) := if_neg (by simp [h1, h0])

/-- A word is its four fields. -/
theorem cmdWord_fields {w : Word} (h1 : cmdRsv1 w = 0) (h0 : cmdRsv0 w = 0) :
    cmdWord (cmdOp w) (cmdTag w) = w := by
  apply BitVec.eq_of_getLsbD_eq
  intro i hi
  rw [cmdWord_getLsbD]
  split_ifs with a b c
  · rw [cmdTag, BitVec.getLsbD_extractLsb']; simp [a]
  · have := congrArg (fun x => BitVec.getLsbD x 0) h0
    simp only [cmdRsv0, BitVec.getLsbD_extractLsb', BitVec.ofNat_eq_ofNat, BitVec.getLsbD_zero] at this
    subst b; simpa using this.symm
  · rw [cmdOp, BitVec.getLsbD_extractLsb']
    have e : 8 + (i - 8) = i := by omega
    have d : decide (i - 8 < 4) = true := by simp; omega
    rw [e, d, Bool.true_and]
  · have := congrArg (fun x => BitVec.getLsbD x (i - 12)) h1
    simp only [cmdRsv1, BitVec.getLsbD_extractLsb', BitVec.ofNat_eq_ofNat, BitVec.getLsbD_zero] at this
    have e : 12 + (i - 12) = i := by omega
    have d : decide (i - 12 < 20) = true := by simp; omega
    rw [e, d, Bool.true_and] at this
    exact this.symm

end Sys2Proof
end

