-- ==== Sys2Proof/Laws/Memory.lean ====
section
/-! SUPPORT. The laws of buffer contents: read after write, every write keeps the canonical form and the bound on the
byte indexes, and what a bit-string written is read back as. -/
namespace Sys2Proof.Machine

@[simp] theorem Memory.byte?_nil (i : Nat) : Memory.byte? [] i = none := rfl

@[simp] theorem Memory.wf_nil : Memory.wf [] = true := rfl

theorem Memory.byte?_store (m : Memory) (i : Nat) (v : Byte) (a : Nat) :
    Memory.byte? (Memory.store m i v) a = if a = i then some v else Memory.byte? m a := by
  induction m with
  | nil => simp only [Memory.store, Memory.byte?]; split <;> split <;> simp_all
  | cons c m ih =>
    rw [Memory.store]
    split
    · simp only [Memory.byte?]; grind
    · split
      · simp only [Memory.byte?]; grind
      · simp only [Memory.byte?, ih]; grind

@[simp] theorem Memory.byte?_store_same (m : Memory) (i : Nat) (v : Byte) :
    Memory.byte? (Memory.store m i v) i = some v := by simp [Memory.byte?_store]

theorem Memory.byte?_store_ne (m : Memory) (i : Nat) (v : Byte) {a : Nat} (h : a ≠ i) :
    Memory.byte? (Memory.store m i v) a = Memory.byte? m a := by simp [Memory.byte?_store, h]

theorem Memory.byte?_storeBytes (m : Memory) (i : Nat) (vs : List Byte) (a : Nat) :
    Memory.byte? (Memory.storeBytes m i vs) a
      = if i ≤ a ∧ a < i + vs.length then vs[a - i]? else Memory.byte? m a := by
  induction vs generalizing m i with
  | nil => simp [Memory.storeBytes]
  | cons v vs ih =>
    rw [Memory.storeBytes, ih, Memory.byte?_store]
    by_cases h : a = i
    · subst h; simp
    · by_cases h2 : i + 1 ≤ a ∧ a < i + 1 + vs.length
      · have : a - i = (a - (i + 1)) + 1 := by omega
        rw [if_pos h2, if_pos (by simp; omega), this, List.getElem?_cons_succ]
      · rw [if_neg h2, if_neg h, if_neg (by simp; omega)]

/-- Every byte outside the bytes written reads as before. -/
theorem Memory.byte?_storeBytes_of_outside (m : Memory) (i : Nat) (vs : List Byte) {a : Nat}
    (h : a < i ∨ i + vs.length ≤ a) : Memory.byte? (Memory.storeBytes m i vs) a = Memory.byte? m a := by
  rw [Memory.byte?_storeBytes, if_neg (by omega)]

theorem Memory.wf_cons {c : Host.Cell} {m : Memory} :
    Memory.wf (c :: m) = true ↔ (∀ d ∈ m.head?, c.1 < d.1) ∧ Memory.wf m = true := by
  cases m with
  | nil => simp [Memory.wf]
  | cons d m => simp [Memory.wf]

theorem Memory.head?_store (m : Memory) (i : Nat) (v : Byte) :
    ∀ d ∈ (Memory.store m i v).head?, d.1 = i ∨ d ∈ m.head? := by
  cases m with
  | nil => simp [Memory.store]
  | cons c m => rw [Memory.store]; split_ifs <;> simp

/-- A write keeps the canonical form. -/
theorem Memory.wf_store {m : Memory} (h : Memory.wf m = true) (i : Nat) (v : Byte) :
    Memory.wf (Memory.store m i v) = true := by
  induction m with
  | nil => rfl
  | cons c m ih =>
    obtain ⟨h1, h2⟩ := Memory.wf_cons.1 h
    rw [Memory.store]
    split
    · exact Memory.wf_cons.2 ⟨by simpa using ‹_›, h⟩
    · split
      · rename_i h3
        exact Memory.wf_cons.2 ⟨fun d hd => h3 ▸ h1 d hd, h2⟩
      · refine Memory.wf_cons.2 ⟨fun d hd => ?_, ih h2⟩
        rcases Memory.head?_store m i v d hd with h4 | h4
        · omega
        · exact h1 d h4

theorem Memory.wf_storeBytes {m : Memory} (h : Memory.wf m = true) (i : Nat) (vs : List Byte) :
    Memory.wf (Memory.storeBytes m i vs) = true := by
  induction vs generalizing m i with
  | nil => exact h
  | cons v vs ih => exact ih (Memory.wf_store h i v) (i + 1)

theorem Memory.wf_storeWord {m : Memory} (h : Memory.wf m = true) (k : Nat) (w : Word) :
    Memory.wf (Memory.storeWord m k w) = true := Memory.wf_storeBytes h _ _

theorem Memory.wf_storeBits {m : Memory} (h : Memory.wf m = true) (s : Bits) :
    Memory.wf (Memory.storeBits m s) = true := Memory.wf_storeBytes h _ _

theorem Memory.mem_store {m : Memory} {i : Nat} {v : Byte} {c : Host.Cell} (h : c ∈ Memory.store m i v) :
    c = (i, v) ∨ c ∈ m := by
  induction m with
  | nil => simpa [Memory.store] using h
  | cons d m ih => rw [Memory.store] at h; split_ifs at h <;> simp at h ⊢ <;> grind

/-- A write below a bound keeps every listed byte index below it. -/
theorem Memory.below_storeBytes {m : Memory} {n : Nat} (h : ∀ c ∈ m, c.1 < n) (i : Nat) (vs : List Byte)
    (hi : i + vs.length ≤ n) : ∀ c ∈ Memory.storeBytes m i vs, c.1 < n := by
  induction vs generalizing m i with
  | nil => exact h
  | cons v vs ih =>
    rw [List.length_cons] at hi
    refine ih (fun c hc => ?_) (i + 1) (by omega)
    rcases Memory.mem_store hc with rfl | hc
    · show i < n; omega
    · exact h c hc

/-- Two memories in canonical form that read the same everywhere are equal. -/
theorem Memory.byte?_eq_none_of_lt_head {m : Memory} (h : Memory.wf m = true) {a : Nat}
    (ha : ∀ c ∈ m.head?, a < c.1) : Memory.byte? m a = none := by
  induction m with
  | nil => rfl
  | cons c m ih =>
    obtain ⟨h1, h2⟩ := Memory.wf_cons.1 h
    have hc : a < c.1 := ha c (by simp)
    rw [Memory.byte?, if_neg (by omega)]
    exact ih h2 (fun d hd => hc.trans (h1 d hd))

theorem Memory.eq_of_byte?_eq {m n : Memory} (hm : Memory.wf m = true) (hn : Memory.wf n = true)
    (h : ∀ a, Memory.byte? m a = Memory.byte? n a) : m = n := by
  induction m generalizing n with
  | nil =>
    cases n with
    | nil => rfl
    | cons d n => have := h d.1; simp [Memory.byte?] at this
  | cons c m ih =>
    cases n with
    | nil => have := h c.1; simp [Memory.byte?] at this
    | cons d n =>
      obtain ⟨hc, hm'⟩ := Memory.wf_cons.1 hm
      obtain ⟨hd, hn'⟩ := Memory.wf_cons.1 hn
      have hcd : c.1 = d.1 := by
        rcases Nat.lt_trichotomy c.1 d.1 with hlt | heq | hgt
        · have h1 := h c.1
          rw [Memory.byte?_eq_none_of_lt_head hn (by simpa using hlt)] at h1
          simp [Memory.byte?] at h1
        · exact heq
        · have h1 := h d.1
          rw [Memory.byte?_eq_none_of_lt_head hm (by simpa using hgt)] at h1
          simp [Memory.byte?] at h1
      have hv : c.2 = d.2 := by have h1 := h c.1; simpa [Memory.byte?, hcd] using h1
      have hrest : m = n := by
        refine ih hm' hn' (fun a => ?_)
        by_cases hac : a = c.1
        · rw [hac, Memory.byte?_eq_none_of_lt_head hm' hc, Memory.byte?_eq_none_of_lt_head hn' (hcd ▸ hd)]
        · have h1 := h a
          rwa [Memory.byte?, Memory.byte?, if_neg (Ne.symm hac), if_neg (hcd ▸ Ne.symm hac)] at h1
      rw [Prod.ext hcd hv, hrest]

/-- `BufRead` gives exactly the written bits, and nothing when one is unwritten. -/
theorem Memory.readBits_eq_some_iff {m : Memory} {j n : Nat} {bs : Bits} :
    Memory.readBits m j n = some bs ↔ bs.length = n ∧ ∀ i < n, Memory.bit? m (j + i) = bs[i]? := by
  induction n generalizing j bs with
  | zero => simp [Memory.readBits, eq_comm]
  | succ n ih =>
    rw [Memory.readBits]
    constructor
    · intro h
      split at h
      · rename_i b bs' hb hbs
        obtain rfl := Option.some.inj h
        obtain ⟨h1, h2⟩ := ih.1 hbs
        refine ⟨by simp [h1], fun i hi => ?_⟩
        cases i with
        | zero => simpa using hb
        | succ i => rw [List.getElem?_cons_succ, ← h2 i (by omega)]; congr 1; omega
      · cases h
    · rintro ⟨h1, h2⟩
      obtain _ | ⟨b, bs⟩ := bs
      · simp at h1
      · have h3 : Memory.readBits m (j + 1) n = some bs :=
          ih.2 ⟨by simpa using h1, fun i hi => by
            have := h2 (i + 1) (by omega)
            rw [List.getElem?_cons_succ] at this
            rw [← this]; congr 1; omega⟩
        have h4 : Memory.bit? m j = some b := by simpa using h2 0 (by omega)
        simp [h3, h4]

theorem Memory.readBits_length {m : Memory} {j n : Nat} {bs : Bits} (h : Memory.readBits m j n = some bs) :
    bs.length = n := (Memory.readBits_eq_some_iff.1 h).1

/-- A bit-string of whole bytes written from bit 0 is read back, and every bit above it reads as before. -/
theorem Memory.bit?_storeBits (m : Memory) (s : Bits) (h : s.length % 8 = 0) (j : Nat) :
    Memory.bit? (Memory.storeBits m s) j = if j < s.length then s[j]? else Memory.bit? m j := by
  rw [Memory.bit?, Memory.storeBits, Memory.byte?_storeBytes, length_packBytes]
  by_cases hj : j < s.length
  · rw [if_pos hj, if_pos (by omega), Nat.sub_zero]
    exact packBytes_getMsbD _ _ (by omega) _ (by omega)
  · rw [if_neg hj, if_neg (by omega), Memory.bit?]

theorem Memory.readBits_storeBits (m : Memory) (s : Bits) (h : s.length % 8 = 0) {n : Nat} (hn : n ≤ s.length) :
    Memory.readBits (Memory.storeBits m s) 0 n = some (s.take n) := by
  refine Memory.readBits_eq_some_iff.2 ⟨by simp [hn], fun i hi => ?_⟩
  rw [Nat.zero_add, Memory.bit?_storeBits _ _ h, if_pos (by omega), List.getElem?_take, if_pos hi]

theorem Memory.byte?_storeBits_of_outside (m : Memory) (s : Bits) {a : Nat} (h : s.length / 8 ≤ a) :
    Memory.byte? (Memory.storeBits m s) a = Memory.byte? m a :=
  Memory.byte?_storeBytes_of_outside _ _ _ (by rw [length_packBytes]; omega)

/-- A word written is read back, whatever unwritten bytes read as. -/
theorem Memory.wordD_storeWord (m : Memory) (d : Nat → Byte) (k : Nat) (w : Word) :
    Memory.wordD (Memory.storeWord m k w) d k = w := by
  have h : ∀ w : Word, wordOfBytes (w.extractLsb' 24 8) (w.extractLsb' 16 8) (w.extractLsb' 8 8)
      (w.extractLsb' 0 8) = w := by
    intro w
    apply BitVec.eq_of_getLsbD_eq
    intro i hi
    simp only [wordOfBytes, BitVec.getLsbD_append, BitVec.getLsbD_extractLsb']
    grind
  simp only [Memory.wordD, Memory.storeWord, Memory.byte?_storeBytes, length_wordBytes]
  simp [wordBytes, h]

end Sys2Proof.Machine
end

