-- ==== Sys2Proof/Laws/State.lean ====
section
/-! SUPPORT. One lemma per field of State per named update, so that no proof unfolds a record update. -/
namespace Sys2Proof.Machine

section setStatus
variable (s : State) (f : Status)

@[simp] theorem State.setStatus_cmd : (s.setStatus f).cmd = s.cmd := rfl
@[simp] theorem State.setStatus_status : (s.setStatus f).status = f := rfl
@[simp] theorem State.setStatus_frameSize : (s.setStatus f).frameSize = s.frameSize := rfl
@[simp] theorem State.setStatus_srcIp : (s.setStatus f).srcIp = s.srcIp := rfl
@[simp] theorem State.setStatus_srcPort : (s.setStatus f).srcPort = s.srcPort := rfl
@[simp] theorem State.setStatus_dstIp : (s.setStatus f).dstIp = s.dstIp := rfl
@[simp] theorem State.setStatus_dstPort : (s.setStatus f).dstPort = s.dstPort := rfl
@[simp] theorem State.setStatus_hdrCtl : (s.setStatus f).hdrCtl = s.hdrCtl := rfl
@[simp] theorem State.setStatus_code : (s.setStatus f).code = s.code := rfl
@[simp] theorem State.setStatus_latch : (s.setStatus f).latch = s.latch := rfl
@[simp] theorem State.setStatus_segPos : (s.setStatus f).segPos = s.segPos := rfl
@[simp] theorem State.setStatus_segCount : (s.setStatus f).segCount = s.segCount := rfl
@[simp] theorem State.setStatus_bufSel : (s.setStatus f).bufSel = s.bufSel := rfl
@[simp] theorem State.setStatus_bufIdx : (s.setStatus f).bufIdx = s.bufIdx := rfl
@[simp] theorem State.setStatus_payLen : (s.setStatus f).payLen = s.payLen := rfl
@[simp] theorem State.setStatus_datLen : (s.setStatus f).datLen = s.datLen := rfl
@[simp] theorem State.setStatus_txLen : (s.setStatus f).txLen = s.txLen := rfl
@[simp] theorem State.setStatus_rxbLen : (s.setStatus f).rxbLen = s.rxbLen := rfl
@[simp] theorem State.setStatus_rxf : (s.setStatus f).rxf = s.rxf := rfl
@[simp] theorem State.setStatus_pay : (s.setStatus f).pay = s.pay := rfl
@[simp] theorem State.setStatus_dat : (s.setStatus f).dat = s.dat := rfl
@[simp] theorem State.setStatus_tx : (s.setStatus f).tx = s.tx := rfl
@[simp] theorem State.setStatus_rx : (s.setStatus f).rx = s.rx := rfl
@[simp] theorem State.setStatus_pending : (s.setStatus f).pending = s.pending := rfl
@[simp] theorem State.setStatus_reply : (s.setStatus f).reply = s.reply := rfl
@[simp] theorem State.setStatus_epoch : (s.setStatus f).epoch = s.epoch := rfl

@[simp] theorem State.setStatus_buf (b : Buffer) : (s.setStatus f).buf b = s.buf b := by cases b <;> rfl
@[simp] theorem State.setStatus_len (b : Buffer) : (s.setStatus f).len b = s.len b := by cases b <;> rfl

end setStatus

section setCode
variable (s : State) (v : Nat)

@[simp] theorem State.setCode_cmd : (s.setCode v).cmd = s.cmd := rfl
@[simp] theorem State.setCode_status : (s.setCode v).status = s.status := rfl
@[simp] theorem State.setCode_frameSize : (s.setCode v).frameSize = s.frameSize := rfl
@[simp] theorem State.setCode_srcIp : (s.setCode v).srcIp = s.srcIp := rfl
@[simp] theorem State.setCode_srcPort : (s.setCode v).srcPort = s.srcPort := rfl
@[simp] theorem State.setCode_dstIp : (s.setCode v).dstIp = s.dstIp := rfl
@[simp] theorem State.setCode_dstPort : (s.setCode v).dstPort = s.dstPort := rfl
@[simp] theorem State.setCode_hdrCtl : (s.setCode v).hdrCtl = s.hdrCtl := rfl
@[simp] theorem State.setCode_code : (s.setCode v).code = BitVec.ofNat 64 v := rfl
@[simp] theorem State.setCode_latch : (s.setCode v).latch = s.latch := rfl
@[simp] theorem State.setCode_segPos : (s.setCode v).segPos = s.segPos := rfl
@[simp] theorem State.setCode_segCount : (s.setCode v).segCount = s.segCount := rfl
@[simp] theorem State.setCode_bufSel : (s.setCode v).bufSel = s.bufSel := rfl
@[simp] theorem State.setCode_bufIdx : (s.setCode v).bufIdx = s.bufIdx := rfl
@[simp] theorem State.setCode_payLen : (s.setCode v).payLen = s.payLen := rfl
@[simp] theorem State.setCode_datLen : (s.setCode v).datLen = s.datLen := rfl
@[simp] theorem State.setCode_txLen : (s.setCode v).txLen = s.txLen := rfl
@[simp] theorem State.setCode_rxbLen : (s.setCode v).rxbLen = s.rxbLen := rfl
@[simp] theorem State.setCode_rxf : (s.setCode v).rxf = s.rxf := rfl
@[simp] theorem State.setCode_pay : (s.setCode v).pay = s.pay := rfl
@[simp] theorem State.setCode_dat : (s.setCode v).dat = s.dat := rfl
@[simp] theorem State.setCode_tx : (s.setCode v).tx = s.tx := rfl
@[simp] theorem State.setCode_rx : (s.setCode v).rx = s.rx := rfl
@[simp] theorem State.setCode_pending : (s.setCode v).pending = s.pending := rfl
@[simp] theorem State.setCode_reply : (s.setCode v).reply = s.reply := rfl
@[simp] theorem State.setCode_epoch : (s.setCode v).epoch = s.epoch := rfl

@[simp] theorem State.setCode_buf (b : Buffer) : (s.setCode v).buf b = s.buf b := by cases b <;> rfl
@[simp] theorem State.setCode_len (b : Buffer) : (s.setCode v).len b = s.len b := by cases b <;> rfl

end setCode

section setRxf
variable (s : State) (u : RxFields)

@[simp] theorem State.setRxf_cmd : (s.setRxf u).cmd = s.cmd := rfl
@[simp] theorem State.setRxf_status : (s.setRxf u).status = s.status := rfl
@[simp] theorem State.setRxf_frameSize : (s.setRxf u).frameSize = s.frameSize := rfl
@[simp] theorem State.setRxf_srcIp : (s.setRxf u).srcIp = s.srcIp := rfl
@[simp] theorem State.setRxf_srcPort : (s.setRxf u).srcPort = s.srcPort := rfl
@[simp] theorem State.setRxf_dstIp : (s.setRxf u).dstIp = s.dstIp := rfl
@[simp] theorem State.setRxf_dstPort : (s.setRxf u).dstPort = s.dstPort := rfl
@[simp] theorem State.setRxf_hdrCtl : (s.setRxf u).hdrCtl = s.hdrCtl := rfl
@[simp] theorem State.setRxf_code : (s.setRxf u).code = s.code := rfl
@[simp] theorem State.setRxf_latch : (s.setRxf u).latch = s.latch := rfl
@[simp] theorem State.setRxf_segPos : (s.setRxf u).segPos = s.segPos := rfl
@[simp] theorem State.setRxf_segCount : (s.setRxf u).segCount = s.segCount := rfl
@[simp] theorem State.setRxf_bufSel : (s.setRxf u).bufSel = s.bufSel := rfl
@[simp] theorem State.setRxf_bufIdx : (s.setRxf u).bufIdx = s.bufIdx := rfl
@[simp] theorem State.setRxf_payLen : (s.setRxf u).payLen = s.payLen := rfl
@[simp] theorem State.setRxf_datLen : (s.setRxf u).datLen = s.datLen := rfl
@[simp] theorem State.setRxf_txLen : (s.setRxf u).txLen = s.txLen := rfl
@[simp] theorem State.setRxf_rxbLen : (s.setRxf u).rxbLen = s.rxbLen := rfl
@[simp] theorem State.setRxf_rxf : (s.setRxf u).rxf = u := rfl
@[simp] theorem State.setRxf_pay : (s.setRxf u).pay = s.pay := rfl
@[simp] theorem State.setRxf_dat : (s.setRxf u).dat = s.dat := rfl
@[simp] theorem State.setRxf_tx : (s.setRxf u).tx = s.tx := rfl
@[simp] theorem State.setRxf_rx : (s.setRxf u).rx = s.rx := rfl
@[simp] theorem State.setRxf_pending : (s.setRxf u).pending = s.pending := rfl
@[simp] theorem State.setRxf_reply : (s.setRxf u).reply = s.reply := rfl
@[simp] theorem State.setRxf_epoch : (s.setRxf u).epoch = s.epoch := rfl

@[simp] theorem State.setRxf_buf (b : Buffer) : (s.setRxf u).buf b = s.buf b := by cases b <;> rfl
@[simp] theorem State.setRxf_len (b : Buffer) : (s.setRxf u).len b = s.len b := by cases b <;> rfl

end setRxf

section putTx
variable (s : State) (c : Bits) (n : Nat)

@[simp] theorem State.putTx_cmd : (s.putTx c n).cmd = s.cmd := rfl
@[simp] theorem State.putTx_status : (s.putTx c n).status = s.status := rfl
@[simp] theorem State.putTx_frameSize : (s.putTx c n).frameSize = s.frameSize := rfl
@[simp] theorem State.putTx_srcIp : (s.putTx c n).srcIp = s.srcIp := rfl
@[simp] theorem State.putTx_srcPort : (s.putTx c n).srcPort = s.srcPort := rfl
@[simp] theorem State.putTx_dstIp : (s.putTx c n).dstIp = s.dstIp := rfl
@[simp] theorem State.putTx_dstPort : (s.putTx c n).dstPort = s.dstPort := rfl
@[simp] theorem State.putTx_hdrCtl : (s.putTx c n).hdrCtl = s.hdrCtl := rfl
@[simp] theorem State.putTx_code : (s.putTx c n).code = s.code := rfl
@[simp] theorem State.putTx_latch : (s.putTx c n).latch = s.latch := rfl
@[simp] theorem State.putTx_segPos : (s.putTx c n).segPos = s.segPos := rfl
@[simp] theorem State.putTx_segCount : (s.putTx c n).segCount = s.segCount := rfl
@[simp] theorem State.putTx_bufSel : (s.putTx c n).bufSel = s.bufSel := rfl
@[simp] theorem State.putTx_bufIdx : (s.putTx c n).bufIdx = s.bufIdx := rfl
@[simp] theorem State.putTx_payLen : (s.putTx c n).payLen = s.payLen := rfl
@[simp] theorem State.putTx_datLen : (s.putTx c n).datLen = s.datLen := rfl
@[simp] theorem State.putTx_txLen : (s.putTx c n).txLen = BitVec.ofNat 32 n := rfl
@[simp] theorem State.putTx_rxbLen : (s.putTx c n).rxbLen = s.rxbLen := rfl
@[simp] theorem State.putTx_rxf : (s.putTx c n).rxf = s.rxf := rfl
@[simp] theorem State.putTx_pay : (s.putTx c n).pay = s.pay := rfl
@[simp] theorem State.putTx_dat : (s.putTx c n).dat = s.dat := rfl
@[simp] theorem State.putTx_tx : (s.putTx c n).tx = s.tx.storeBits c := rfl
@[simp] theorem State.putTx_rx : (s.putTx c n).rx = s.rx := rfl
@[simp] theorem State.putTx_pending : (s.putTx c n).pending = s.pending := rfl
@[simp] theorem State.putTx_reply : (s.putTx c n).reply = s.reply := rfl
@[simp] theorem State.putTx_epoch : (s.putTx c n).epoch = s.epoch := rfl


end putTx

section succeed
variable (s : State)

@[simp] theorem State.succeed_cmd : s.succeed.cmd = s.cmd := rfl
@[simp] theorem State.succeed_status : s.succeed.status = s.status.succeed := rfl
@[simp] theorem State.succeed_frameSize : s.succeed.frameSize = s.frameSize := rfl
@[simp] theorem State.succeed_srcIp : s.succeed.srcIp = s.srcIp := rfl
@[simp] theorem State.succeed_srcPort : s.succeed.srcPort = s.srcPort := rfl
@[simp] theorem State.succeed_dstIp : s.succeed.dstIp = s.dstIp := rfl
@[simp] theorem State.succeed_dstPort : s.succeed.dstPort = s.dstPort := rfl
@[simp] theorem State.succeed_hdrCtl : s.succeed.hdrCtl = s.hdrCtl := rfl
@[simp] theorem State.succeed_code : s.succeed.code = s.code := rfl
@[simp] theorem State.succeed_latch : s.succeed.latch = s.latch := rfl
@[simp] theorem State.succeed_segPos : s.succeed.segPos = s.segPos := rfl
@[simp] theorem State.succeed_segCount : s.succeed.segCount = s.segCount := rfl
@[simp] theorem State.succeed_bufSel : s.succeed.bufSel = s.bufSel := rfl
@[simp] theorem State.succeed_bufIdx : s.succeed.bufIdx = s.bufIdx := rfl
@[simp] theorem State.succeed_payLen : s.succeed.payLen = s.payLen := rfl
@[simp] theorem State.succeed_datLen : s.succeed.datLen = s.datLen := rfl
@[simp] theorem State.succeed_txLen : s.succeed.txLen = s.txLen := rfl
@[simp] theorem State.succeed_rxbLen : s.succeed.rxbLen = s.rxbLen := rfl
@[simp] theorem State.succeed_rxf : s.succeed.rxf = s.rxf := rfl
@[simp] theorem State.succeed_pay : s.succeed.pay = s.pay := rfl
@[simp] theorem State.succeed_dat : s.succeed.dat = s.dat := rfl
@[simp] theorem State.succeed_tx : s.succeed.tx = s.tx := rfl
@[simp] theorem State.succeed_rx : s.succeed.rx = s.rx := rfl
@[simp] theorem State.succeed_pending : s.succeed.pending = s.pending := rfl
@[simp] theorem State.succeed_reply : s.succeed.reply = s.reply := rfl
@[simp] theorem State.succeed_epoch : s.succeed.epoch = s.epoch := rfl

@[simp] theorem State.succeed_buf (b : Buffer) : s.succeed.buf b = s.buf b := by cases b <;> rfl
@[simp] theorem State.succeed_len (b : Buffer) : s.succeed.len b = s.len b := by cases b <;> rfl

end succeed

section raiseError
variable (s : State) (k : Bool) (e : ErrorCode)

@[simp] theorem State.raiseError_cmd : (s.raiseError k e).cmd = s.cmd := rfl
@[simp] theorem State.raiseError_status : (s.raiseError k e).status = s.status.raise k e := rfl
@[simp] theorem State.raiseError_frameSize : (s.raiseError k e).frameSize = s.frameSize := rfl
@[simp] theorem State.raiseError_srcIp : (s.raiseError k e).srcIp = s.srcIp := rfl
@[simp] theorem State.raiseError_srcPort : (s.raiseError k e).srcPort = s.srcPort := rfl
@[simp] theorem State.raiseError_dstIp : (s.raiseError k e).dstIp = s.dstIp := rfl
@[simp] theorem State.raiseError_dstPort : (s.raiseError k e).dstPort = s.dstPort := rfl
@[simp] theorem State.raiseError_hdrCtl : (s.raiseError k e).hdrCtl = s.hdrCtl := rfl
@[simp] theorem State.raiseError_code : (s.raiseError k e).code = s.code := rfl
@[simp] theorem State.raiseError_latch : (s.raiseError k e).latch = s.latch := rfl
@[simp] theorem State.raiseError_segPos : (s.raiseError k e).segPos = s.segPos := rfl
@[simp] theorem State.raiseError_segCount : (s.raiseError k e).segCount = s.segCount := rfl
@[simp] theorem State.raiseError_bufSel : (s.raiseError k e).bufSel = s.bufSel := rfl
@[simp] theorem State.raiseError_bufIdx : (s.raiseError k e).bufIdx = s.bufIdx := rfl
@[simp] theorem State.raiseError_payLen : (s.raiseError k e).payLen = s.payLen := rfl
@[simp] theorem State.raiseError_datLen : (s.raiseError k e).datLen = s.datLen := rfl
@[simp] theorem State.raiseError_txLen : (s.raiseError k e).txLen = s.txLen := rfl
@[simp] theorem State.raiseError_rxbLen : (s.raiseError k e).rxbLen = s.rxbLen := rfl
@[simp] theorem State.raiseError_rxf : (s.raiseError k e).rxf = s.rxf := rfl
@[simp] theorem State.raiseError_pay : (s.raiseError k e).pay = s.pay := rfl
@[simp] theorem State.raiseError_dat : (s.raiseError k e).dat = s.dat := rfl
@[simp] theorem State.raiseError_tx : (s.raiseError k e).tx = s.tx := rfl
@[simp] theorem State.raiseError_rx : (s.raiseError k e).rx = s.rx := rfl
@[simp] theorem State.raiseError_pending : (s.raiseError k e).pending = s.pending := rfl
@[simp] theorem State.raiseError_reply : (s.raiseError k e).reply = s.reply := rfl
@[simp] theorem State.raiseError_epoch : (s.raiseError k e).epoch = s.epoch := rfl

@[simp] theorem State.raiseError_buf (b : Buffer) : (s.raiseError k e).buf b = s.buf b := by cases b <;> rfl
@[simp] theorem State.raiseError_len (b : Buffer) : (s.raiseError k e).len b = s.len b := by cases b <;> rfl

end raiseError

section recordCheck
variable (s : State) (sc : Scheme) (f : Bits)

@[simp] theorem State.recordCheck_cmd : (s.recordCheck sc f).cmd = s.cmd := rfl
@[simp] theorem State.recordCheck_status : (s.recordCheck sc f).status = s.status.checked (CheckResult.ofCheck (sc.checkOk f)) := rfl
@[simp] theorem State.recordCheck_frameSize : (s.recordCheck sc f).frameSize = s.frameSize := rfl
@[simp] theorem State.recordCheck_srcIp : (s.recordCheck sc f).srcIp = s.srcIp := rfl
@[simp] theorem State.recordCheck_srcPort : (s.recordCheck sc f).srcPort = s.srcPort := rfl
@[simp] theorem State.recordCheck_dstIp : (s.recordCheck sc f).dstIp = s.dstIp := rfl
@[simp] theorem State.recordCheck_dstPort : (s.recordCheck sc f).dstPort = s.dstPort := rfl
@[simp] theorem State.recordCheck_hdrCtl : (s.recordCheck sc f).hdrCtl = s.hdrCtl := rfl
@[simp] theorem State.recordCheck_code : (s.recordCheck sc f).code = BitVec.ofNat 64 (sc.checkCode f) := rfl
@[simp] theorem State.recordCheck_latch : (s.recordCheck sc f).latch = s.latch := rfl
@[simp] theorem State.recordCheck_segPos : (s.recordCheck sc f).segPos = s.segPos := rfl
@[simp] theorem State.recordCheck_segCount : (s.recordCheck sc f).segCount = s.segCount := rfl
@[simp] theorem State.recordCheck_bufSel : (s.recordCheck sc f).bufSel = s.bufSel := rfl
@[simp] theorem State.recordCheck_bufIdx : (s.recordCheck sc f).bufIdx = s.bufIdx := rfl
@[simp] theorem State.recordCheck_payLen : (s.recordCheck sc f).payLen = s.payLen := rfl
@[simp] theorem State.recordCheck_datLen : (s.recordCheck sc f).datLen = s.datLen := rfl
@[simp] theorem State.recordCheck_txLen : (s.recordCheck sc f).txLen = s.txLen := rfl
@[simp] theorem State.recordCheck_rxbLen : (s.recordCheck sc f).rxbLen = s.rxbLen := rfl
@[simp] theorem State.recordCheck_rxf : (s.recordCheck sc f).rxf = s.rxf := rfl
@[simp] theorem State.recordCheck_pay : (s.recordCheck sc f).pay = s.pay := rfl
@[simp] theorem State.recordCheck_dat : (s.recordCheck sc f).dat = s.dat := rfl
@[simp] theorem State.recordCheck_tx : (s.recordCheck sc f).tx = s.tx := rfl
@[simp] theorem State.recordCheck_rx : (s.recordCheck sc f).rx = s.rx := rfl
@[simp] theorem State.recordCheck_pending : (s.recordCheck sc f).pending = s.pending := rfl
@[simp] theorem State.recordCheck_reply : (s.recordCheck sc f).reply = s.reply := rfl
@[simp] theorem State.recordCheck_epoch : (s.recordCheck sc f).epoch = s.epoch := rfl

@[simp] theorem State.recordCheck_buf (b : Buffer) : (s.recordCheck sc f).buf b = s.buf b := by cases b <;> rfl
@[simp] theorem State.recordCheck_len (b : Buffer) : (s.recordCheck sc f).len b = s.len b := by cases b <;> rfl

end recordCheck

section segStarted
variable (s : State) (t : BitVec 7) (sc : Scheme)

@[simp] theorem State.segStarted_cmd : (s.segStarted t sc).cmd = s.cmd := rfl
@[simp] theorem State.segStarted_status : (s.segStarted t sc).status = s.status.segStarted := rfl
@[simp] theorem State.segStarted_frameSize : (s.segStarted t sc).frameSize = s.frameSize := rfl
@[simp] theorem State.segStarted_srcIp : (s.segStarted t sc).srcIp = s.srcIp := rfl
@[simp] theorem State.segStarted_srcPort : (s.segStarted t sc).srcPort = s.srcPort := rfl
@[simp] theorem State.segStarted_dstIp : (s.segStarted t sc).dstIp = s.dstIp := rfl
@[simp] theorem State.segStarted_dstPort : (s.segStarted t sc).dstPort = s.dstPort := rfl
@[simp] theorem State.segStarted_hdrCtl : (s.segStarted t sc).hdrCtl = s.hdrCtl := rfl
@[simp] theorem State.segStarted_code : (s.segStarted t sc).code = s.code := rfl
@[simp] theorem State.segStarted_latch : (s.segStarted t sc).latch = s.latched t sc := rfl
@[simp] theorem State.segStarted_segPos : (s.segStarted t sc).segPos = 0 := rfl
@[simp] theorem State.segStarted_segCount : (s.segStarted t sc).segCount = 0 := rfl
@[simp] theorem State.segStarted_bufSel : (s.segStarted t sc).bufSel = s.bufSel := rfl
@[simp] theorem State.segStarted_bufIdx : (s.segStarted t sc).bufIdx = s.bufIdx := rfl
@[simp] theorem State.segStarted_payLen : (s.segStarted t sc).payLen = s.payLen := rfl
@[simp] theorem State.segStarted_datLen : (s.segStarted t sc).datLen = s.datLen := rfl
@[simp] theorem State.segStarted_txLen : (s.segStarted t sc).txLen = s.txLen := rfl
@[simp] theorem State.segStarted_rxbLen : (s.segStarted t sc).rxbLen = s.rxbLen := rfl
@[simp] theorem State.segStarted_rxf : (s.segStarted t sc).rxf = s.rxf := rfl
@[simp] theorem State.segStarted_pay : (s.segStarted t sc).pay = s.pay := rfl
@[simp] theorem State.segStarted_dat : (s.segStarted t sc).dat = s.dat := rfl
@[simp] theorem State.segStarted_tx : (s.segStarted t sc).tx = s.tx := rfl
@[simp] theorem State.segStarted_rx : (s.segStarted t sc).rx = s.rx := rfl
@[simp] theorem State.segStarted_pending : (s.segStarted t sc).pending = s.pending := rfl
@[simp] theorem State.segStarted_reply : (s.segStarted t sc).reply = s.reply := rfl
@[simp] theorem State.segStarted_epoch : (s.segStarted t sc).epoch = s.epoch := rfl

@[simp] theorem State.segStarted_buf (b : Buffer) : (s.segStarted t sc).buf b = s.buf b := by cases b <;> rfl
@[simp] theorem State.segStarted_len (b : Buffer) : (s.segStarted t sc).len b = s.len b := by cases b <;> rfl

end segStarted

section frameEmitted
variable (s : State) (sc : Scheme) (d : Bits)

@[simp] theorem State.frameEmitted_cmd : (s.frameEmitted sc d).cmd = s.cmd := rfl
@[simp] theorem State.frameEmitted_status : (s.frameEmitted sc d).status = s.status.frameEmitted s.windowLast := rfl
@[simp] theorem State.frameEmitted_frameSize : (s.frameEmitted sc d).frameSize = s.frameSize := rfl
@[simp] theorem State.frameEmitted_srcIp : (s.frameEmitted sc d).srcIp = s.srcIp := rfl
@[simp] theorem State.frameEmitted_srcPort : (s.frameEmitted sc d).srcPort = s.srcPort := rfl
@[simp] theorem State.frameEmitted_dstIp : (s.frameEmitted sc d).dstIp = s.dstIp := rfl
@[simp] theorem State.frameEmitted_dstPort : (s.frameEmitted sc d).dstPort = s.dstPort := rfl
@[simp] theorem State.frameEmitted_hdrCtl : (s.frameEmitted sc d).hdrCtl = s.hdrCtl := rfl
@[simp] theorem State.frameEmitted_code : (s.frameEmitted sc d).code = BitVec.ofNat 64 (val ((s.nextFrame sc d).drop ((s.nextFrame sc d).length - s.latch.r.toNat))) := rfl
@[simp] theorem State.frameEmitted_latch : (s.frameEmitted sc d).latch = s.latch := rfl
@[simp] theorem State.frameEmitted_segPos : (s.frameEmitted sc d).segPos = BitVec.ofNat 32 (s.segPos.toNat + s.windowLen) := rfl
@[simp] theorem State.frameEmitted_segCount : (s.frameEmitted sc d).segCount = s.segCount + 1 := rfl
@[simp] theorem State.frameEmitted_bufSel : (s.frameEmitted sc d).bufSel = s.bufSel := rfl
@[simp] theorem State.frameEmitted_bufIdx : (s.frameEmitted sc d).bufIdx = s.bufIdx := rfl
@[simp] theorem State.frameEmitted_payLen : (s.frameEmitted sc d).payLen = s.payLen := rfl
@[simp] theorem State.frameEmitted_datLen : (s.frameEmitted sc d).datLen = s.datLen := rfl
@[simp] theorem State.frameEmitted_txLen : (s.frameEmitted sc d).txLen = BitVec.ofNat 32 (8 * s.latch.fsize.toNat) := rfl
@[simp] theorem State.frameEmitted_rxbLen : (s.frameEmitted sc d).rxbLen = s.rxbLen := rfl
@[simp] theorem State.frameEmitted_rxf : (s.frameEmitted sc d).rxf = s.rxf := rfl
@[simp] theorem State.frameEmitted_pay : (s.frameEmitted sc d).pay = s.pay := rfl
@[simp] theorem State.frameEmitted_dat : (s.frameEmitted sc d).dat = s.dat := rfl
@[simp] theorem State.frameEmitted_tx : (s.frameEmitted sc d).tx = s.tx.storeBits (padToWord (s.nextFrame sc d)) := rfl
@[simp] theorem State.frameEmitted_rx : (s.frameEmitted sc d).rx = s.rx := rfl
@[simp] theorem State.frameEmitted_pending : (s.frameEmitted sc d).pending = s.pending := rfl
@[simp] theorem State.frameEmitted_reply : (s.frameEmitted sc d).reply = s.reply := rfl
@[simp] theorem State.frameEmitted_epoch : (s.frameEmitted sc d).epoch = s.epoch := rfl


end frameEmitted

section advanceIdx
variable (s : State)

@[simp] theorem State.advanceIdx_cmd : s.advanceIdx.cmd = s.cmd := rfl
@[simp] theorem State.advanceIdx_status : s.advanceIdx.status = s.status := rfl
@[simp] theorem State.advanceIdx_frameSize : s.advanceIdx.frameSize = s.frameSize := rfl
@[simp] theorem State.advanceIdx_srcIp : s.advanceIdx.srcIp = s.srcIp := rfl
@[simp] theorem State.advanceIdx_srcPort : s.advanceIdx.srcPort = s.srcPort := rfl
@[simp] theorem State.advanceIdx_dstIp : s.advanceIdx.dstIp = s.dstIp := rfl
@[simp] theorem State.advanceIdx_dstPort : s.advanceIdx.dstPort = s.dstPort := rfl
@[simp] theorem State.advanceIdx_hdrCtl : s.advanceIdx.hdrCtl = s.hdrCtl := rfl
@[simp] theorem State.advanceIdx_code : s.advanceIdx.code = s.code := rfl
@[simp] theorem State.advanceIdx_latch : s.advanceIdx.latch = s.latch := rfl
@[simp] theorem State.advanceIdx_segPos : s.advanceIdx.segPos = s.segPos := rfl
@[simp] theorem State.advanceIdx_segCount : s.advanceIdx.segCount = s.segCount := rfl
@[simp] theorem State.advanceIdx_bufSel : s.advanceIdx.bufSel = s.bufSel := rfl
@[simp] theorem State.advanceIdx_bufIdx : s.advanceIdx.bufIdx = s.bufIdx + 1 := rfl
@[simp] theorem State.advanceIdx_payLen : s.advanceIdx.payLen = s.payLen := rfl
@[simp] theorem State.advanceIdx_datLen : s.advanceIdx.datLen = s.datLen := rfl
@[simp] theorem State.advanceIdx_txLen : s.advanceIdx.txLen = s.txLen := rfl
@[simp] theorem State.advanceIdx_rxbLen : s.advanceIdx.rxbLen = s.rxbLen := rfl
@[simp] theorem State.advanceIdx_rxf : s.advanceIdx.rxf = s.rxf := rfl
@[simp] theorem State.advanceIdx_pay : s.advanceIdx.pay = s.pay := rfl
@[simp] theorem State.advanceIdx_dat : s.advanceIdx.dat = s.dat := rfl
@[simp] theorem State.advanceIdx_tx : s.advanceIdx.tx = s.tx := rfl
@[simp] theorem State.advanceIdx_rx : s.advanceIdx.rx = s.rx := rfl
@[simp] theorem State.advanceIdx_pending : s.advanceIdx.pending = s.pending := rfl
@[simp] theorem State.advanceIdx_reply : s.advanceIdx.reply = s.reply := rfl
@[simp] theorem State.advanceIdx_epoch : s.advanceIdx.epoch = s.epoch := rfl

@[simp] theorem State.advanceIdx_buf (b : Buffer) : s.advanceIdx.buf b = s.buf b := by cases b <;> rfl
@[simp] theorem State.advanceIdx_len (b : Buffer) : s.advanceIdx.len b = s.len b := by cases b <;> rfl

end advanceIdx

section setBuf
variable (s : State) (b : Buffer) (m : Memory)

theorem State.setBuf_buf (b' : Buffer) : (s.setBuf b m).buf b' = if b' = b then m else s.buf b' := by
  cases b <;> cases b' <;> rfl

@[simp] theorem State.setBuf_buf_same : (s.setBuf b m).buf b = m := by cases b <;> rfl
@[simp] theorem State.setBuf_len (b' : Buffer) : (s.setBuf b m).len b' = s.len b' := by cases b <;> cases b' <;> rfl

@[simp] theorem State.setBuf_cmd : (s.setBuf b m).cmd = s.cmd := by cases b <;> rfl
@[simp] theorem State.setBuf_status : (s.setBuf b m).status = s.status := by cases b <;> rfl
@[simp] theorem State.setBuf_frameSize : (s.setBuf b m).frameSize = s.frameSize := by cases b <;> rfl
@[simp] theorem State.setBuf_srcIp : (s.setBuf b m).srcIp = s.srcIp := by cases b <;> rfl
@[simp] theorem State.setBuf_srcPort : (s.setBuf b m).srcPort = s.srcPort := by cases b <;> rfl
@[simp] theorem State.setBuf_dstIp : (s.setBuf b m).dstIp = s.dstIp := by cases b <;> rfl
@[simp] theorem State.setBuf_dstPort : (s.setBuf b m).dstPort = s.dstPort := by cases b <;> rfl
@[simp] theorem State.setBuf_hdrCtl : (s.setBuf b m).hdrCtl = s.hdrCtl := by cases b <;> rfl
@[simp] theorem State.setBuf_code : (s.setBuf b m).code = s.code := by cases b <;> rfl
@[simp] theorem State.setBuf_latch : (s.setBuf b m).latch = s.latch := by cases b <;> rfl
@[simp] theorem State.setBuf_segPos : (s.setBuf b m).segPos = s.segPos := by cases b <;> rfl
@[simp] theorem State.setBuf_segCount : (s.setBuf b m).segCount = s.segCount := by cases b <;> rfl
@[simp] theorem State.setBuf_bufSel : (s.setBuf b m).bufSel = s.bufSel := by cases b <;> rfl
@[simp] theorem State.setBuf_bufIdx : (s.setBuf b m).bufIdx = s.bufIdx := by cases b <;> rfl
@[simp] theorem State.setBuf_payLen : (s.setBuf b m).payLen = s.payLen := by cases b <;> rfl
@[simp] theorem State.setBuf_datLen : (s.setBuf b m).datLen = s.datLen := by cases b <;> rfl
@[simp] theorem State.setBuf_txLen : (s.setBuf b m).txLen = s.txLen := by cases b <;> rfl
@[simp] theorem State.setBuf_rxbLen : (s.setBuf b m).rxbLen = s.rxbLen := by cases b <;> rfl
@[simp] theorem State.setBuf_rxf : (s.setBuf b m).rxf = s.rxf := by cases b <;> rfl
@[simp] theorem State.setBuf_pending : (s.setBuf b m).pending = s.pending := by cases b <;> rfl
@[simp] theorem State.setBuf_reply : (s.setBuf b m).reply = s.reply := by cases b <;> rfl
@[simp] theorem State.setBuf_epoch : (s.setBuf b m).epoch = s.epoch := by cases b <;> rfl

end setBuf

section status
variable (f : Status)

@[simp] theorem Status.succeed_err : f.succeed.err = .none := rfl
@[simp] theorem Status.succeed_sticky : f.succeed.sticky = f.sticky := rfl
@[simp] theorem Status.succeed_result : f.succeed.result = f.result := rfl
@[simp] theorem Status.succeed_segActive : f.succeed.segActive = f.segActive := rfl
@[simp] theorem Status.succeed_segDone : f.succeed.segDone = f.segDone := rfl
@[simp] theorem Status.succeed_last : f.succeed.last = f.last := rfl
@[simp] theorem Status.clear_err : f.clear.err = .none := rfl
@[simp] theorem Status.clear_sticky : f.clear.sticky = false := rfl
@[simp] theorem Status.clear_result : f.clear.result = .none := rfl
@[simp] theorem Status.clear_segActive : f.clear.segActive = f.segActive := rfl
@[simp] theorem Status.clear_segDone : f.clear.segDone = f.segDone := rfl
@[simp] theorem Status.clear_last : f.clear.last = f.last := rfl
@[simp] theorem Status.segStarted_err : f.segStarted.err = .none := rfl
@[simp] theorem Status.segStarted_sticky : f.segStarted.sticky = f.sticky := rfl
@[simp] theorem Status.segStarted_result : f.segStarted.result = f.result := rfl
@[simp] theorem Status.segStarted_segActive : f.segStarted.segActive = true := rfl
@[simp] theorem Status.segStarted_segDone : f.segStarted.segDone = false := rfl
@[simp] theorem Status.segStarted_last : f.segStarted.last = false := rfl
@[simp] theorem Status.checked_err (r : CheckResult) : (f.checked r).err = .none := rfl
@[simp] theorem Status.checked_sticky (r : CheckResult) : (f.checked r).sticky = f.sticky := rfl
@[simp] theorem Status.checked_result (r : CheckResult) : (f.checked r).result = r := rfl
@[simp] theorem Status.checked_segActive (r : CheckResult) : (f.checked r).segActive = f.segActive := rfl
@[simp] theorem Status.checked_segDone (r : CheckResult) : (f.checked r).segDone = f.segDone := rfl
@[simp] theorem Status.checked_last (r : CheckResult) : (f.checked r).last = f.last := rfl
@[simp] theorem Status.frameEmitted_err (b : Bool) : (f.frameEmitted b).err = .none := rfl
@[simp] theorem Status.frameEmitted_sticky (b : Bool) : (f.frameEmitted b).sticky = f.sticky := rfl
@[simp] theorem Status.frameEmitted_result (b : Bool) : (f.frameEmitted b).result = f.result := rfl
@[simp] theorem Status.frameEmitted_segActive (b : Bool) : (f.frameEmitted b).segActive = (f.segActive && !b) := rfl
@[simp] theorem Status.frameEmitted_segDone (b : Bool) : (f.frameEmitted b).segDone = (f.segDone || b) := rfl
@[simp] theorem Status.frameEmitted_last (b : Bool) : (f.frameEmitted b).last = b := rfl
@[simp] theorem Status.raise_err (k : Bool) (e : ErrorCode) : (f.raise k e).err = e := rfl
@[simp] theorem Status.raise_sticky (k : Bool) (e : ErrorCode) : (f.raise k e).sticky = true := rfl
@[simp] theorem Status.raise_result (k : Bool) (e : ErrorCode) : (f.raise k e).result = (if k && e != .illegalCommand then .none else f.result) := rfl
@[simp] theorem Status.raise_segActive (k : Bool) (e : ErrorCode) : (f.raise k e).segActive = f.segActive := rfl
@[simp] theorem Status.raise_segDone (k : Bool) (e : ErrorCode) : (f.raise k e).segDone = f.segDone := rfl
@[simp] theorem Status.raise_last (k : Bool) (e : ErrorCode) : (f.raise k e).last = f.last := rfl

end status

end Sys2Proof.Machine
end

