-- ==== Sys2Proof/Laws/Ops.lean ====
section
/-! SUPPORT. For each shared operation of the commands, what it can do: cited by proofs instead of unfolding it. -/
namespace Sys2Proof.Machine

@[simp] theorem capBits_dat : capBits .dat = 65536 := rfl
@[simp] theorem capBits_tx : capBits .tx = 65536 := rfl
@[simp] theorem capBits_rx : capBits .rx = 65536 := rfl

theorem capBits_pay_bounds : 65536 ≤ capBits .pay ∧ capBits .pay ≤ 4294967264 := by
  have h := payCapWords_bounds
  simp only [capBits, capWords]; omega

section operands
variable {s t : State} {b : Buffer} {k : Bits → Result} {bits : Bits}

theorem withBits_of_written {j n : Nat} (h : (s.buf b).readBits j n = some bits) :
    withBits s b j n k = k bits := by simp [withBits, h]

theorem withBits_of_unwritten {j n : Nat} (h : (s.buf b).readBits j n = none) :
    withBits s b j n k = .fault (.unwrittenBits b) := by simp [withBits, h]

/-- Reading bits goes on only with written bits. -/
theorem withBits_next {j n : Nat} (h : withBits s b j n k = .next t) :
    ∃ bits, (s.buf b).readBits j n = some bits ∧ k bits = .next t := by
  unfold withBits at h
  split at h
  · exact ⟨_, ‹_›, h⟩
  · cases h

theorem withOperand_of_long {least : Nat} {c : Bool} (h : capBits b < (s.len b).toNat) :
    withOperand s b least c k = .next (s.raiseError c .length) := if_pos h

theorem withOperand_of_short {least : Nat} {c : Bool} (h : (s.len b).toNat ≤ capBits b)
    (h2 : (s.len b).toNat < least) : withOperand s b least c k = .next (s.raiseError c .truncatedFrame) := by
  rw [withOperand, if_neg (by omega), if_pos h2]

theorem withOperand_of_written {least : Nat} {c : Bool} (h : (s.len b).toNat ≤ capBits b)
    (h2 : least ≤ (s.len b).toNat) (h3 : (s.buf b).readBits 0 (s.len b).toNat = some bits) :
    withOperand s b least c k = k bits := by
  rw [withOperand, if_neg (by omega), if_neg (by omega), withBits_of_written h3]

/-- The three ways an operand read can answer a next state (60_exceptions.md R705). -/
theorem withOperand_next {least : Nat} {c : Bool} (h : withOperand s b least c k = .next t) :
    (capBits b < (s.len b).toNat ∧ t = s.raiseError c .length)
    ∨ ((s.len b).toNat ≤ capBits b ∧ (s.len b).toNat < least ∧ t = s.raiseError c .truncatedFrame)
    ∨ ((s.len b).toNat ≤ capBits b ∧ least ≤ (s.len b).toNat
        ∧ ∃ bits, (s.buf b).readBits 0 (s.len b).toNat = some bits ∧ bits.length = (s.len b).toNat
            ∧ k bits = .next t) := by
  unfold withOperand at h
  split_ifs at h with h1 h2
  · exact .inl ⟨h1, (Host.Outcome.next.inj h).symm⟩
  · exact .inr (.inl ⟨by omega, h2, (Host.Outcome.next.inj h).symm⟩)
  · obtain ⟨bits, h3, h4⟩ := withBits_next h
    exact .inr (.inr ⟨by omega, by omega, bits, h3, Memory.readBits_length h3, h4⟩)

end operands

section commands
variable {s t : State}

/-- What a GEN command can do (41_crc.md R465, 42_checksum.md R510). -/
theorem generateDat_next {sc : Scheme} (h : generateDat sc s = .next t) :
    (65536 < s.datLen.toNat ∧ t = s.raiseError false .length)
    ∨ (s.datLen.toNat ≤ 65536 ∧ ∃ bits, s.dat.readBits 0 s.datLen.toNat = some bits
        ∧ t = (s.setCode (val (sc.generate bits))).succeed) := by
  rcases withOperand_next h with h | ⟨_, h2, _⟩ | ⟨h1, _, bits, h3, _, h4⟩
  · exact .inl h
  · omega
  · exact .inr ⟨h1, bits, h3, (Host.Outcome.next.inj h4).symm⟩

/-- What a CHK command can do (41_crc.md R466, 42_checksum.md R511). -/
theorem checkDat_next {sc : Scheme} (h : checkDat sc s = .next t) :
    (65536 < s.datLen.toNat ∧ t = s.raiseError true .length)
    ∨ (s.datLen.toNat ≤ 65536 ∧ s.datLen.toNat < sc.codeWidth ∧ t = s.raiseError true .truncatedFrame)
    ∨ (s.datLen.toNat ≤ 65536 ∧ sc.codeWidth ≤ s.datLen.toNat ∧ ∃ f, s.dat.readBits 0 s.datLen.toNat = some f
        ∧ f.length = s.datLen.toNat ∧ t = s.recordCheck sc f) := by
  rcases withOperand_next h with h | h | ⟨h1, h2, f, h3, h4, h5⟩
  · exact .inl h
  · exact .inr (.inl h)
  · exact .inr (.inr ⟨h1, h2, f, h3, h4, (Host.Outcome.next.inj h5).symm⟩)

/-- Unpacking fails exactly for a truncated frame (43_header.md R558, R559). -/
theorem unpack_eq_none_iff {f : Bits} :
    unpack f = none ↔ f.length < 128 ∨ ∃ sc, frameTag f = .known sc ∧ f.length < 120 + sc.codeWidth := by
  unfold unpack leastFrameBits
  split
  · simp_all
  · split
    · rename_i sc hsc
      split <;> simp_all
    · simp_all

/-- What HUNPACK can do (43_header.md R560). -/
theorem execHunpack_next (h : execHunpack s = .next t) :
    (65536 < s.rxbLen.toNat ∧ t = s.raiseError false .length)
    ∨ (s.rxbLen.toNat ≤ 65536 ∧ t = s.raiseError false .truncatedFrame
        ∧ (s.rxbLen.toNat < 128 ∨ ∃ f, s.rx.readBits 0 s.rxbLen.toNat = some f ∧ unpack f = none))
    ∨ (s.rxbLen.toNat ≤ 65536 ∧ ∃ f u, s.rx.readBits 0 s.rxbLen.toNat = some f ∧ unpack f = some u
        ∧ t = (s.setRxf u).succeed) := by
  rcases withOperand_next h with h | ⟨h1, h2, h3⟩ | ⟨h1, _, f, h3, _, h5⟩
  · exact .inl h
  · exact .inr (.inl ⟨h1, h3, .inl h2⟩)
  · cases hu : unpack f with
    | none =>
      rw [hu] at h5
      exact .inr (.inl ⟨h1, (Host.Outcome.next.inj h5).symm, .inr ⟨f, h3, hu⟩⟩)
    | some u =>
      rw [hu] at h5
      exact .inr (.inr ⟨h1, f, u, h3, hu, (Host.Outcome.next.inj h5).symm⟩)

/-- What VALIDATE can do (45_validator.md R651). -/
theorem execValidate_next (h : execValidate s = .next t) :
    (65536 < s.rxbLen.toNat ∧ t = s.raiseError true .length)
    ∨ (s.rxbLen.toNat ≤ 65536 ∧ t = s.raiseError true .truncatedFrame
        ∧ (s.rxbLen.toNat < 128 ∨ ∃ f, s.rx.readBits 0 s.rxbLen.toNat = some f ∧ unpack f = none))
    ∨ (s.rxbLen.toNat ≤ 65536 ∧ ∃ f u, s.rx.readBits 0 s.rxbLen.toNat = some f ∧ unpack f = some u
        ∧ t = s.validated f u) := by
  rcases withOperand_next h with h | ⟨h1, h2, h3⟩ | ⟨h1, _, f, h3, _, h5⟩
  · exact .inl h
  · exact .inr (.inl ⟨h1, h3, .inl h2⟩)
  · cases hu : unpack f with
    | none =>
      rw [hu] at h5
      exact .inr (.inl ⟨h1, (Host.Outcome.next.inj h5).symm, .inr ⟨f, h3, hu⟩⟩)
    | some u =>
      rw [hu] at h5
      exact .inr (.inr ⟨h1, f, u, h3, hu, (Host.Outcome.next.inj h5).symm⟩)

/-- What a VALIDATE that unpacks its frame leaves (45_validator.md R651). -/
theorem validated_cases (s : State) (f : Bits) (u : RxFields) :
    (∃ raw, frameTag f = .unknown raw
        ∧ s.validated f u = (s.setRxf u).setStatus (s.status.checked .undetermined))
    ∨ (∃ sc, frameTag f = .known sc ∧ s.validated f u = (s.setRxf u).recordCheck sc f) := by
  unfold State.validated
  split
  · exact .inl ⟨_, ‹_›, rfl⟩
  · exact .inr ⟨_, ‹_›, rfl⟩

/-- What SEG.START can do (44_segmenter.md R605). -/
theorem execSegStart_next {tag : BitVec 7} (h : execSegStart tag s = .next t) :
    (∃ e, t = s.raiseError false e ∧ (e = .unsupportedScheme ∨ e = .length ∨ e = .frameTooSmall))
    ∨ (∃ sc, decodeTag tag = .known sc ∧ s.payLen.toNat ≤ capBits .pay ∧ 0 < chunkBits s.frameSize.toNat sc
        ∧ t = s.segStarted tag sc) := by
  unfold execSegStart at h
  split at h
  · exact .inl ⟨_, (Host.Outcome.next.inj h).symm, .inl rfl⟩
  · rename_i sc hsc
    split_ifs at h with h1 h2
    · exact .inl ⟨_, (Host.Outcome.next.inj h).symm, .inr (.inl rfl)⟩
    · exact .inl ⟨_, (Host.Outcome.next.inj h).symm, .inr (.inr rfl)⟩
    · exact .inr ⟨sc, hsc, by omega, by omega, (Host.Outcome.next.inj h).symm⟩

/-- What SEG.NEXT can do (44_segmenter.md R610). -/
theorem execSegNext_next (h : execSegNext s = .next t) :
    (s.status.segActive = false ∧ t = s.raiseError false .sequence)
    ∨ (s.status.segActive = true ∧ ∃ d sc, s.pay.readBits s.segPos.toNat s.windowLen = some d
        ∧ d.length = s.windowLen ∧ decodeTag s.latch.tag = .known sc ∧ t = s.frameEmitted sc d) := by
  unfold execSegNext at h
  split_ifs at h with h1
  · obtain ⟨d, h2, h3⟩ := withBits_next h
    split at h3
    · exact .inr ⟨h1, d, _, h2, Memory.readBits_length h2, ‹_›, (Host.Outcome.next.inj h3).symm⟩
    · cases h3
  · exact .inl ⟨by simpa using h1, (Host.Outcome.next.inj h).symm⟩

end commands

section frames

/-- The header is 120 bits (30_encoding.md R321, 43_header.md R550). -/
@[simp] theorem length_header (a : Word) (b : BitVec 16) (c : Word) (d e : BitVec 16) (l : Bool) (t : BitVec 7) :
    (header a b c d e l t).length = 120 := by simp [header]

theorem length_frameBody (l : Latches) (d : Bits) (last : Bool) (h : d.length ≤ l.chunk.toNat) :
    (frameBody l d last).length = 120 + l.chunk.toNat := by simp [frameBody]; omega

/-- A frame is 120 + C + R bits (30_encoding.md R324, 44_segmenter.md R607). -/
theorem length_segFrame (l : Latches) (sc : Scheme) (d : Bits) (last : Bool) (h : d.length ≤ l.chunk.toNat) :
    (segFrame l sc d last).length = 120 + l.chunk.toNat + sc.codeWidth := by
  simp [segFrame, length_frameBody l d last h]

/-- Padding fills whole words and keeps the frame in front (44_segmenter.md R610). -/
theorem length_padToWord (f : Bits) : (padToWord f).length % 32 = 0 ∧ f.length ≤ (padToWord f).length
    ∧ (padToWord f).length < f.length + 32 := by
  simp only [padToWord, List.length_append, length_zeros]; omega

theorem windowLen_le_chunk (s : State) : s.windowLen ≤ s.latch.chunk.toNat := Nat.min_le_left _ _

end frames

end Sys2Proof.Machine
end

