-- ==== Sys2Proof/Laws/PerInstr.lean ====
section
/-! SUPPORT. What holds of every command as syntax: one lemma per constructor. -/

/-- The word of the command has its reserved fields clear and an OP of the command set (30_encoding.md R300,
R301). -/
def Sys2Proof.Laws.LegalWord.Statement (i : Sys2Proof.Instr) : Prop :=
  Sys2Proof.cmdRsv1 (Sys2Proof.encode i) = 0 ∧ Sys2Proof.cmdRsv0 (Sys2Proof.encode i) = 0
    ∧ (Sys2Proof.cmdOp (Sys2Proof.encode i)).toNat < 9

namespace Sys2Proof.Laws.LegalWord

theorem nop : Statement .nop := by simp [Statement, encode]
theorem clr : Statement .clr := by simp [Statement, encode]
theorem genCsum : Statement .genCsum := by simp [Statement, encode]
theorem genCrc8 : Statement .genCrc8 := by simp [Statement, encode]
theorem genCrc10 : Statement .genCrc10 := by simp [Statement, encode]
theorem genCrc16 : Statement .genCrc16 := by simp [Statement, encode]
theorem genCrc32 : Statement .genCrc32 := by simp [Statement, encode]
theorem chkCsum : Statement .chkCsum := by simp [Statement, encode]
theorem chkCrc8 : Statement .chkCrc8 := by simp [Statement, encode]
theorem chkCrc10 : Statement .chkCrc10 := by simp [Statement, encode]
theorem chkCrc16 : Statement .chkCrc16 := by simp [Statement, encode]
theorem chkCrc32 : Statement .chkCrc32 := by simp [Statement, encode]
theorem hpack (tag : BitVec 7) : Statement (.hpack tag) := by simp [Statement, encode]
theorem hunpack : Statement .hunpack := by simp [Statement, encode]
theorem segStart (tag : BitVec 7) : Statement (.segStart tag) := by simp [Statement, encode]
theorem segNext : Statement .segNext := by simp [Statement, encode]
theorem validate : Statement .validate := by simp [Statement, encode]

end Sys2Proof.Laws.LegalWord
end

