-- ==== Sys2Proof/Laws/Port.lean ====
section
/-! SUPPORT. The register map and the shape of a step: cited by proofs instead of unfolding step and serve. -/
namespace Sys2Proof.Machine

@[simp] theorem regAt_regOffset (r : Reg) : regAt (regOffset r) = some r := by cases r <;> decide

theorem regOffset_aligned (r : Reg) : (regOffset r).toNat % 4 = 0 := by cases r <;> decide

theorem regAt_eq_some {off : BitVec 8} {r : Reg} (h : regAt off = some r) : regOffset r = off := by
  simpa using List.find?_some h

@[simp] theorem selected_eq (s : State) : s.selected = bufferOfSel s.bufSel := rfl

theorem step_of_event {s : State} {e : BusEvent} {rest : List BusEvent} (h : s.pending = e :: rest) :
    step s = serve e { s with pending := rest } := by simp [step, h]

/-- A permitted read. -/
theorem serve_read (s : State) {off : BitVec 8} (h : off.toNat % 4 = 0) :
    serve (.access { off := off, bytes := 4, op := .read }) s = .next (s.readAt off) := by
  simp [serve, serveAccess, HostAccess.fullWidth, HostAccess.aligned, h]

/-- A permitted write. -/
theorem serve_write (s : State) {off : BitVec 8} (h : off.toNat % 4 = 0) (v : Word) :
    serve (.access { off := off, bytes := 4, op := .write v }) s = writeAt off v s := by
  simp [serve, serveAccess, HostAccess.fullWidth, HostAccess.aligned, h]

/-- A write of CMD runs the command word. -/
theorem serve_command (s : State) (w : Word) :
    serve (.access { off := 0x00, bytes := 4, op := .write w }) s = runCommand w { s with reply := none } := by
  rw [serve_write s (by decide), writeAt, show regAt 0x00 = some .cmd from by decide]

/-- A write of any other register. -/
theorem serve_writeReg (s : State) {r : Reg} (h : r ≠ .cmd) (v : Word) :
    serve (.access { off := regOffset r, bytes := 4, op := .write v }) s
      = .next (({ s with reply := none } : State).writeReg r v) := by
  rw [serve_write s (regOffset_aligned r), writeAt, regAt_regOffset]
  cases r <;> simp at h ⊢

/-- A step is one of: idle, a reset, a read, a write to an unmapped offset, a write of a register, a rejected command
word, a command. -/
theorem step_next {s t : State} (h : step s = .next t) :
    (s.pending = [] ∧ t = s)
    ∨ ∃ e rest, s.pending = e :: rest ∧
      ((e = .reset ∧ t = ({ s with pending := rest } : State).platformReset)
      ∨ (∃ off, t = ({ s with pending := rest } : State).readAt off)
      ∨ t = { s with pending := rest, reply := none }
      ∨ (∃ r v, r ≠ .cmd ∧ t = ({ s with pending := rest, reply := none } : State).writeReg r v)
      ∨ (∃ w err, decode w = .error err
          ∧ t = ({ s with pending := rest, reply := none, cmd := w } : State).raiseError (isCheckWord w)
              (decodeErrorCode err))
      ∨ (∃ w i, decode w = .ok i ∧ exec i { s with pending := rest, reply := none, cmd := w } = .next t)) := by
  cases hp : s.pending with
  | nil =>
    simp only [step, hp] at h
    exact .inl ⟨rfl, (Host.Outcome.next.inj h).symm⟩
  | cons e rest =>
    rw [step_of_event hp] at h
    refine .inr ⟨e, rest, rfl, ?_⟩
    cases e with
    | reset => exact .inl ⟨rfl, (Host.Outcome.next.inj h).symm⟩
    | access a =>
      refine .inr ?_
      simp only [serve, serveAccess] at h
      split_ifs at h
      split at h
      · exact .inl ⟨a.off, (Host.Outcome.next.inj h).symm⟩
      · rename_i v _
        refine .inr ?_
        unfold writeAt at h
        split at h
        · exact .inl (Host.Outcome.next.inj h).symm
        · refine .inr (.inr ?_)
          unfold runCommand at h
          split at h
          · exact .inr ⟨v, _, ‹_›, h⟩
          · exact .inl ⟨v, _, ‹_›, (Host.Outcome.next.inj h).symm⟩
        · rename_i r hr _
          exact .inr (.inl ⟨r, v, by simpa using hr, (Host.Outcome.next.inj h).symm⟩)

end Sys2Proof.Machine
end

