-- ==== Sys2Proof/Machine/HostProgram.lean ====
section
/-! DEFINITION. The host's lines and pseudo-instructions, as the accesses they stand for (30_encoding.md R307,
R308). -/
namespace Sys2Proof.Machine

/-- `wr NAME, v` (30_encoding.md R307). -/
def wr (r : Reg) (v : Word) : BusEvent := .access { off := regOffset r, bytes := 4, op := .write v }

/-- `rd NAME` (30_encoding.md R307). -/
def rd (r : Reg) : BusEvent := .access { off := regOffset r, bytes := 4, op := .read }

/-- `cmd M` and `cmd M s`: the command's word written to CMD (30_encoding.md R307). -/
def cmd (i : Instr) : BusEvent := wr .cmd (encode i)

/-- `sel(B)` (30_encoding.md R308, 10_state.md R122). -/
def selOf : Buffer → Word
  | .pay => 0
  | .dat => 1
  | .tx => 2
  | .rx => 3

/-- `LEN(B)` (30_encoding.md R308); TX's length register ignores writes. -/
def lenRegOf : Buffer → Reg
  | .pay => .payLen
  | .dat => .datLen
  | .tx => .txLen
  | .rx => .rxbLen

/-- `load B, n, w0, ..., wk` (30_encoding.md R308). -/
def load (b : Buffer) (n : Word) (ws : List Word) : List BusEvent :=
  [wr .bufSel (selOf b), wr .bufIdx 0] ++ ws.map (wr .bufData) ++ [wr (lenRegOf b) n]

/-- `dump B, k` (30_encoding.md R308). -/
def dump (b : Buffer) (k : Nat) : List BusEvent :=
  [wr .bufSel (selOf b), wr .bufIdx 0] ++ List.replicate k (rd .bufData)

/-- The first half of `copy TX, RX`: TX read out, `txLen` being TX_LEN (30_encoding.md R308). -/
def copyOut (txLen : Nat) : List BusEvent := dump .tx ((txLen + 31) / 32)

/-- The second half of `copy TX, RX`: the words read loaded into RX (30_encoding.md R308). -/
def copyIn (txLen : Word) (ws : List Word) : List BusEvent := load .rx txLen ws

/-- The first half of `flip RX, j`: the word read (30_encoding.md R308). -/
def flipRead (j : Nat) : List BusEvent :=
  [wr .bufSel 3, wr .bufIdx (BitVec.ofNat 32 (j / 32)), rd .bufData]

/-- The second half of `flip RX, j`: the word read, `v`, written back with bit `j` flipped (30_encoding.md R308). -/
def flipWrite (j : Nat) (v : Word) : List BusEvent :=
  [wr .bufIdx (BitVec.ofNat 32 (j / 32)), wr .bufData (v ^^^ (1#32 <<< (31 - j % 32)))]

/-- `setaddr ips, ps, ipr, pr` (30_encoding.md R308). -/
def setaddr (ips ps ipr pr : Word) : List BusEvent :=
  [wr .srcIp ips, wr .srcPort ps, wr .dstIp ipr, wr .dstPort pr]

/-- The host issues a list of lines, in order (20_memory.md R211). -/
def State.queue (s : State) (lines : List BusEvent) : State := { s with pending := s.pending ++ lines }

end Sys2Proof.Machine
end

