-- ==== Sys2Proof/Tests/Slice0.lean ====
section
/-! SUPPORT. The tests of the model, with the expected values of 95_test_vectors.md, and a witness for the hypotheses
of each statement. Each test is one step. -/
namespace Sys2Proof.Tests
open Sys2Proof Sys2Proof.Machine

/- One test at a time: each `decide +kernel` waits for the theorems before it. -/
set_option Elab.async false

/-! ## Helpers -/

/-- A buffer holding these words from word 0 on. -/
def memory (ws : List Word) : Memory := ws.zipIdx.foldl (fun m p => m.storeWord p.2 p.1) []

/-- DAT loaded with words, DAT_LEN set. -/
def withDat (ws : List Word) (n : Word) : State := { State.reset with dat := memory ws, datLen := n }

/-- RX loaded with words, RXB_LEN set. -/
def withRx (ws : List Word) (n : Word) : State := { State.reset with rx := memory ws, rxbLen := n }

/-- The addresses of the header and segmenter vectors, PAY loaded, FRAME_SIZE set. -/
def withPay (ws : List Word) (n : Word) (fs : BitVec 13) : State :=
  { State.reset with
    pay := memory ws, payLen := n, frameSize := fs
    srcIp := 0x7F000001, srcPort := 0x1388, dstIp := 0x7F000001, dstPort := 0x1770 }

/-- The crc-8 segmentation of an `n`-bit payload in frames of 17 bytes, `done` frames of 8 bits emitted. -/
def running (ws : List Word) (n : Word) (done : Word) : State :=
  { withPay ws n 17 with
    latch :=
      { tag := 1, r := 8, fsize := 17, chunk := 8, payLen := n
        srcIp := 0x7F000001, srcPort := 0x1388, dstIp := 0x7F000001, dstPort := 0x1770 }
    segPos := 8 * done, segCount := done
    status := { Status.reset with segActive := true } }

/-- One host access as the only thing pending. -/
def host (s : State) (off : BitVec 8) (op : HostOp) : State :=
  { s with pending := [.access { off := off, bytes := 4, op := op }] }

/-- A view of the next state. -/
def seen {α : Type} (f : State → α) : Result → Option α
  | .next t => some (f t)
  | .fault _ => none
  | .refused _ => none

def isNext : Result → Bool
  | .next _ => true
  | .fault _ => false
  | .refused _ => false

theorem exists_next {r : Result} (h : isNext r = true) : ∃ t, r = .next t := by
  cases r with
  | next t => exact ⟨t, rfl⟩
  | fault f => cases h
  | refused f => cases h

/-- STATUS and CODE_LO after a command. -/
def statusCode (t : State) : Word × Word := (t.status.word, t.readReg .codeLo)

/-- STATUS, CODE_LO and the first words of TX after a command. -/
def frameSeen (n : Nat) (t : State) : Word × Word × List Word :=
  (t.status.word, t.readReg .codeLo, (List.range n).map (t.hostWord .tx))

/-- STATUS, CODE_LO, RXF_CTL, RXF_REGION and RXF_CODE_LO after a command. -/
def rxfSeen (t : State) : List Word :=
  [t.status.word, t.readReg .codeLo, t.readReg .rxfCtl, t.readReg .rxfRegion, t.readReg .rxfCodeLo]

/-- V-SEG-1. -/
def frameA : List Word := [0x7F000001, 0x13887F00, 0x00011770, 0x00088141, 0, 0, 0, 0x0000004A]

/-! ## Well-formedness: each check refuses an ill-formed term (20_memory.md R204; 00_scope.md R5, R6) -/

/-- A valid configuration, with invented tails. -/
def params0 : Config.Params :=
  { polyCrc10 := true :: zeros 10, polyCrc16 := true :: zeros 16, polyCrc32 := true :: zeros 34
    payCapBits := 65536, blockBase := 512 }

theorem test_wf_accepts_valid_configuration : params0.wf = true := by decide
theorem test_wf_refuses_short_crc10 : ({ params0 with polyCrc10 := true :: zeros 9 }).wf = false := by decide
theorem test_wf_refuses_long_crc16 : ({ params0 with polyCrc16 := true :: zeros 17 }).wf = false := by decide
theorem test_wf_refuses_short_crc32 : ({ params0 with polyCrc32 := true :: zeros 31 }).wf = false := by decide
theorem test_wf_refuses_leading_zero : ({ params0 with polyCrc16 := zeros 17 }).wf = false := by decide
theorem test_wf_refuses_part_word : ({ params0 with payCapBits := 65544 }).wf = false := by decide
theorem test_wf_refuses_small_pay : ({ params0 with payCapBits := 65504 }).wf = false := by decide
theorem test_wf_refuses_large_pay : ({ params0 with payCapBits := 4294967296 }).wf = false := by decide
theorem test_wf_refuses_base : ({ params0 with blockBase := 128 }).wf = false := by decide
theorem test_wf_refuses_half_word : ({ off := 0x04, bytes := 2, op := .read } : HostAccess).wf = false := by decide
theorem test_wf_refuses_misaligned : ({ off := 0x06, bytes := 4, op := .read } : HostAccess).wf = false := by decide
theorem test_wf_commands : (Instr.hpack 127).wf = true ∧ (Instr.segStart 127).wf = true := by decide

/-! ## Decoding: words written out from 30_encoding.md R300 and R304 (RSV1, OP, RSV0, TAG) and the V-DEC vectors -/

theorem test_decode_nop : decode 0b00000000000000000000_0000_0_0000000 = .ok .nop := by decide
theorem test_decode_clr : decode 0b00000000000000000000_0001_0_0000000 = .ok .clr := by decide
theorem test_decode_genCsum : decode 0b00000000000000000000_0010_0_0000000 = .ok .genCsum := by decide
theorem test_decode_genCrc8 : decode 0b00000000000000000000_0010_0_0000001 = .ok .genCrc8 := by decide
theorem test_decode_genCrc10 : decode 0b00000000000000000000_0010_0_0000010 = .ok .genCrc10 := by decide
theorem test_decode_genCrc16 : decode 0b00000000000000000000_0010_0_0000011 = .ok .genCrc16 := by decide
theorem test_decode_genCrc32 : decode 0b00000000000000000000_0010_0_0000100 = .ok .genCrc32 := by decide
theorem test_decode_chkCsum : decode 0b00000000000000000000_0011_0_0000000 = .ok .chkCsum := by decide
theorem test_decode_chkCrc8 : decode 0b00000000000000000000_0011_0_0000001 = .ok .chkCrc8 := by decide
theorem test_decode_chkCrc10 : decode 0b00000000000000000000_0011_0_0000010 = .ok .chkCrc10 := by decide
theorem test_decode_chkCrc16 : decode 0b00000000000000000000_0011_0_0000011 = .ok .chkCrc16 := by decide
theorem test_decode_chkCrc32 : decode 0b00000000000000000000_0011_0_0000100 = .ok .chkCrc32 := by decide
theorem test_decode_hpack : decode 0b00000000000000000000_0100_0_1111111 = .ok (.hpack 127) := by decide
theorem test_decode_hunpack : decode 0b00000000000000000000_0101_0_0000000 = .ok .hunpack := by decide
theorem test_decode_segStart : decode 0b00000000000000000000_0110_0_0001001 = .ok (.segStart 9) := by decide
theorem test_decode_segNext : decode 0b00000000000000000000_0111_0_0000000 = .ok .segNext := by decide
theorem test_decode_validate : decode 0b00000000000000000000_1000_0_0000000 = .ok .validate := by decide

/-- V-DEC-2, 3, 4, 5, 6, 11, 13, 14. -/
theorem test_decode_illegal :
    ([0x00000001, 0x00000080, 0x00001000, 0x00000900, 0x00000F00, 0x00000501, 0x00000701, 0x80000800] : List Word).all
      (fun w => decide (decode w = .error .illegalCommand)) = true := by decide

/-- V-DEC-8, V-DEC-9. -/
theorem test_decode_unsupported :
    decode 0x00000205 = .error .unsupportedScheme ∧ decode 0x0000037F = .error .unsupportedScheme := by decide

/-! ## Commands -/

/-- V-CTL-1. -/
theorem test_nop_keeps_sticky :
    seen (·.status.word)
      (exec .nop { State.reset with status := { Status.reset with err := .illegalCommand, sticky := true } })
      = some 0x00000008 := by decide

/-- V-CTL-2. -/
theorem test_clr_keeps_segmentation :
    seen (·.status.word)
      (exec .clr { State.reset with status := ⟨.truncatedFrame, true, .invalid, true, false, false⟩ })
      = some 0x00000100 := by decide

/-- V-CS-3: padding on the left. -/
theorem test_genCsum_pads_left : seen statusCode (exec .genCsum (withDat [0xABCDE000] 20)) = some (0, 0x4317) := by
  decide +kernel

/-- V-CS-4: the end-around carry. -/
theorem test_genCsum_wraps : seen statusCode (exec .genCsum (withDat [0xFFFF0001] 32)) = some (0, 0xFFFE) := by
  decide +kernel

/-- V-CS-11. -/
theorem test_chkCsum_valid : seen statusCode (exec .chkCsum (withDat [0x41FFBE00] 24)) = some (0x10, 0xFFBE) := by
  decide +kernel

/-- V-CS-14. -/
theorem test_chkCsum_zeros : seen statusCode (exec .chkCsum (withDat [0] 16)) = some (0x20, 0xFFFF) := by
  decide +kernel

/-- V-CRC-1. -/
theorem test_genCrc8_byte : seen statusCode (exec .genCrc8 (withDat [0x41000000] 8)) = some (0, 0x48) := by
  decide +kernel

/-- V-CRC-5. -/
theorem test_genCrc8_word : seen statusCode (exec .genCrc8 (withDat [0x12345678] 32)) = some (0, 0x0B) := by
  decide +kernel

/-- V-CRC-22: the empty input. -/
theorem test_genCrc10_empty : seen statusCode (exec .genCrc10 (withDat [] 0)) = some (0, 0) := by decide +kernel

/-- V-CRC-22: zeros. -/
theorem test_genCrc16_zeros : seen statusCode (exec .genCrc16 (withDat [0] 5)) = some (0, 0) := by decide +kernel

/-- V-CRC-22: the empty input. -/
theorem test_genCrc32_empty : seen statusCode (exec .genCrc32 (withDat [] 0)) = some (0, 0) := by decide +kernel

/-- 41_crc.md R480's example with bit 0 flipped. -/
theorem test_chkCrc8_invalid : seen statusCode (exec .chkCrc8 (withDat [0xC1480000] 16)) = some (0x20, 0xEF) := by
  decide +kernel

/-- V-CRC-17. -/
theorem test_chkCrc8_short : seen statusCode (exec .chkCrc8 (withDat [] 7)) = some (0x0A, 0) := by decide +kernel

/-- V-CRC-26. -/
theorem test_chkCrc10_zeros : seen statusCode (exec .chkCrc10 (withDat [0] 10)) = some (0x10, 0) := by decide +kernel

/-- 41_crc.md R482: 16 bits are VALID exactly when they are zero. -/
theorem test_chkCrc16_code_only : seen statusCode (exec .chkCrc16 (withDat [0x00010000] 16)) = some (0x20, 1) := by
  decide +kernel

/-- V-CRC-25. -/
theorem test_chkCrc32_short : seen statusCode (exec .chkCrc32 (withDat [0, 0] 33)) = some (0x0A, 0) := by
  decide +kernel

/-- V-HDR-1. -/
theorem test_hpack_crc8 :
    seen (frameSeen 4) (exec (.hpack 1) { withPay [] 0 0 with hdrCtl := 0x10008 })
      = some (0, 0, [0x7F000001, 0x13887F00, 0x00011770, 0x00088100]) := by decide +kernel

/-- V-HDR-3. -/
theorem test_hpack_crc32 :
    seen (fun t => (t.hostWord .tx 3, t.txLen)) (exec (.hpack 4) { withPay [] 0 0 with hdrCtl := 0x00006 })
      = some (0x00060400, 120) := by decide +kernel

/-- V-HDR-4. -/
theorem test_hunpack_frame :
    seen rxfSeen (exec .hunpack (withRx frameA 256)) = some [0, 0, 0x01030008, 128, 0x4A] := by decide +kernel

/-- V-HDR-6: an unknown tag, LENERR. -/
theorem test_hunpack_unknown_tag :
    seen rxfSeen (exec .hunpack (withRx [0xC0A80001, 0x0007C0A8, 0x00020009, 0x00108500] 128))
      = some [0, 0, 0x05050010, 8, 0] := by decide +kernel

/-- V-SEG-1. -/
theorem test_segStart_crc8 :
    seen (fun t => [t.status.word, t.readReg .segChunk, t.readReg .segCfg])
      (exec (.segStart 1) (withPay [0x41000000] 8 32)) = some [0x100, 0x80, 0x00200801] := by decide +kernel

/-- V-SEG-6: chunkBits 0. -/
theorem test_segStart_too_small :
    seen (·.status.word) (exec (.segStart 1) (withPay [] 0 16)) = some 0x0000000B := by decide +kernel

/-- V-SEG-2, frame 0. -/
theorem test_segNext_first :
    seen (frameSeen 5) (exec .segNext (running [0x41420000] 16 0))
      = some (0x100, 0xB2, [0x7F000001, 0x13887F00, 0x00011770, 0x00080141, 0xB2000000]) := by decide +kernel

/-- V-SEG-4, frame 1: a short tail. -/
theorem test_segNext_tail :
    seen (frameSeen 5) (exec .segNext (running [0x41400000] 12 1))
      = some (0x600, 0x59, [0x7F000001, 0x13887F00, 0x00011770, 0x00048140, 0x59000000]) := by decide +kernel

/-- V-VAL-1, V-VAL-2. -/
theorem test_validate_crc8 :
    seen statusCode (exec .validate (withRx frameA 256)) = some (0x10, 0)
      ∧ seen statusCode (exec .validate (withRx (0xFF000001 :: frameA.tail) 256)) = some (0x20, 0x49) := by
  decide +kernel

/-- V-VAL-5: one flipped tag bit makes it a checksum frame. -/
theorem test_validate_tag_flip :
    seen statusCode
      (exec .validate (withRx [0x7F000001, 0x13887F00, 0x00011770, 0x00088041, 0, 0, 0, 0x0000004A] 256))
      = some (0x20, 0x56BB) := by decide +kernel

/-- 40_control.md R405. -/
theorem test_unwritten_faults : exec .genCsum (withDat [] 1) = .fault (.unwrittenBits .dat) := rfl

/-! ## The host port -/

/-- V-PORT-1. -/
theorem test_port_last_word :
    seen (fun t => (t.hostWord .dat 2047, t.bufIdx))
      (step (host { State.reset with bufSel := 1, bufIdx := 2047 } 0x48 (.write 0x12345678)))
      = some (0x12345678, 2048) := by decide +kernel

/-- V-PORT-2. -/
theorem test_port_out_of_range :
    seen (fun t => (t.dat, t.bufIdx))
      (step (host { State.reset with bufSel := 1, bufIdx := 2048 } 0x48 (.write 0xAAAAAAAA)))
      = some ([], 2049) := by decide +kernel

/-- V-PORT-4. -/
theorem test_port_tx_read_only :
    seen (fun t => (t.tx, t.bufIdx)) (step (host { State.reset with bufSel := 2 } 0x48 (.write 0xFFFFFFFF)))
      = some ([], 1) := by decide +kernel

/-- V-PORT-6. -/
theorem test_port_index_wraps :
    seen (fun t => (t.reply, t.bufIdx))
      (step (host { State.reset with bufSel := 1, bufIdx := 0xFFFFFFFF } 0x48 .read))
      = some (some 0, 0) := by decide +kernel

/-- V-PORT-9. -/
theorem test_port_reserved_bits :
    seen (·.readReg .hdrCtl) (step (host State.reset 0x1C (.write 0xFFFFFFFF))) = some 0x0001FFFF := by decide +kernel

/-- V-PORT-8. -/
theorem test_port_read_only : seen (·.txLen) (step (host State.reset 0x54 (.write 5))) = some 0 := by decide +kernel

/-- V-PORT-11. -/
theorem test_port_refusals :
    step { State.reset with pending := [.access { off := 0x04, bytes := 2, op := .read }] } = .refused .accessWidth
    ∧ step { State.reset with pending := [.access { off := 0x06, bytes := 4, op := .read }] }
        = .refused .misalignedAccess := ⟨rfl, rfl⟩

/-- P5, line 1: an illegal word is recorded. -/
theorem test_port_illegal_command :
    seen (fun t => (t.cmd, t.status.word)) (step (host State.reset 0x00 (.write 0x00000001)))
      = some (0x00000001, 0x0000000C) := by decide +kernel

/-- P1, line 2: the word of the opcode table runs as the next step. -/
theorem test_fetch_word :
    decodeTableWord 32 0x201 = some .genCrc8
    ∧ seen statusCode (step ((withDat [0x41000000] 8).withFetchWord 32 0x201)) = some (0, 0x48) := by decide +kernel

/-! ## Witnesses: concrete states and operands that meet the hypotheses of each statement, clause by clause -/

/-- 65536 zero bits. -/
@[irreducible] def fullBits : Bits := zeros 65536

theorem length_fullBits : fullBits.length = 65536 := by rw [fullBits, length_zeros]

/-- A full DAT and a full RX. -/
def full : State :=
  { State.reset with
    dat := Memory.storeBits [] fullBits, datLen := 65536
    rx := Memory.storeBits [] fullBits, rxbLen := 65536 }

theorem full_datLen : full.datLen.toNat = 65536 := rfl

theorem full_dat_bits (j n : Nat) (h : j + n ≤ 65536) : full.dat.readBits j n = some (zeros n) := by
  refine Memory.readBits_eq_some_iff.2 ⟨length_zeros n, fun i hi => ?_⟩
  have hb := Memory.bit?_storeBits [] fullBits (by rw [length_fullBits]) (j + i)
  rw [length_fullBits, if_pos (by omega)] at hb
  rw [show full.dat = Memory.storeBits [] fullBits from rfl, hb, fullBits, zeros, zeros,
    List.getElem?_replicate_of_lt (by omega), List.getElem?_replicate_of_lt (by omega)]

theorem full_dat : full.dat.readBits 0 full.datLen.toNat = some (zeros 65536) :=
  full_datLen ▸ full_dat_bits 0 65536 (Nat.le_refl _)

/-- A segmentation with frames left to emit meets the invariant. -/
theorem running_inv {ws : List Word} {n done : Word} (hm : Memory.wf (memory ws) = true)
    (hb : ∀ c ∈ memory ws, c.1 < 8192) (hn : n.toNat ≤ 65536)
    (hp : (8 * done).toNat = done.toNat * 8) (hk : (8 * done).toNat < n.toNat ∨ (n = 0 ∧ done = 0)) :
    (running ws n done).Inv where
  payOk := by
    refine ⟨hm, List.all_eq_true.2 fun c hc => decide_eq_true ?_⟩
    have := hb c hc
    have h := payCapWords_bounds
    simp only [capWords]
    omega
  datOk := ⟨rfl, rfl⟩
  txOk := ⟨rfl, rfl⟩
  rxOk := ⟨rfl, rfl⟩
  txWritten := ⟨Nat.zero_le _, fun j hj => absurd hj (Nat.not_lt_zero j)⟩
  errSticky := fun h => absurd rfl h
  codeWidth := Nat.two_pow_pos 34
  rxfCodeWidth := Nat.two_pow_pos 34
  segmenter := by
    refine .inr (.inl ⟨rfl, rfl, rfl, ?_, hp, hk⟩)
    have h := capBits_pay_bounds
    exact ⟨rfl, rfl, Nat.zero_lt_succ 7, by simp only [running, withPay]; omega⟩

theorem running_one_inv : (running [0x41420000] 16 1).Inv :=
  running_inv (by decide) (by decide) (by decide) (by decide) (by decide)

theorem running_first_inv : (running [0x41420000] 16 0).Inv :=
  running_inv (by decide) (by decide) (by decide) (by decide) (by decide)

theorem running_empty_inv : (running [] 0 0).Inv :=
  running_inv (by decide) (by decide) (by decide) (by decide) (by decide)

/-- The invariant does not look at what is pending. -/
theorem inv_fetchWord {s : State} (h : s.Inv) (nbits w : Nat) : (s.withFetchWord nbits w).Inv :=
  { payOk := h.payOk, datOk := h.datOk, txOk := h.txOk, rxOk := h.rxOk, txWritten := h.txWritten,
    errSticky := h.errSticky, codeWidth := h.codeWidth, rxfCodeWidth := h.rxfCodeWidth, segmenter := h.segmenter }

theorem witness_PlatformResetRestoresResetState :
    ({ full with pending := [.reset, rd .cmd] }).pending = .reset :: [rd .cmd] := rfl

theorem witness_IdleHoldsAllState : full.pending = [] := rfl

theorem witness_StepKeepsInvariant :
    ((running [0x41420000] 16 1).withFetchWord 32 0x700).Inv
    ∧ ∃ t, step ((running [0x41420000] 16 1).withFetchWord 32 0x700) = .next t :=
  ⟨inv_fetchWord running_one_inv _ _, exists_next (by decide +kernel)⟩

/-- A full window, a full tail window, and the one frame of the empty payload. -/
theorem witness_SegmenterCountersNeverWrap :
    ((running [0x41420000] 16 0).Inv ∧ (running [0x41420000] 16 0).status.segActive = true
      ∧ ∃ t, exec .segNext (running [0x41420000] 16 0) = .next t)
    ∧ ((running [0x41420000] 16 1).Inv ∧ (running [0x41420000] 16 1).status.segActive = true
      ∧ ∃ t, exec .segNext (running [0x41420000] 16 1) = .next t)
    ∧ (running [] 0 0).Inv ∧ (running [] 0 0).status.segActive = true
      ∧ ∃ t, exec .segNext (running [] 0 0) = .next t :=
  ⟨⟨running_first_inv, rfl, exists_next (by decide +kernel)⟩, ⟨running_one_inv, rfl, exists_next (by decide +kernel)⟩,
    running_empty_inv, rfl, exists_next (by decide +kernel)⟩

theorem witness_DecodeEncodeRoundTrip :
    Instr.nop.wf = true ∧ (Instr.hpack 0).wf = true ∧ (Instr.segStart 127).wf = true := by decide

theorem witness_StepRunsDecodedCommand :
    (host full 0x00 (.write 0x47F)).pending = [.access { off := 0x00, bytes := 4, op := .write 0x47F }]
    ∧ decode 0x47F = .ok (.hpack 127) ∧ decodeTableWord 32 0x47F = some (.hpack 127) := by decide

theorem witness_RejectedWordsChangeOnlyStatus :
    (host full 0x00 (.write 0x37F)).pending = [.access { off := 0x00, bytes := 4, op := .write 0x37F }]
    ∧ decode 0x37F = .error .unsupportedScheme ∧ decode 0x205 = .error .unsupportedScheme
    ∧ decode 0x380 = .error .illegalCommand ∧ decode 0x801 = .error .illegalCommand := by decide

theorem witness_CmdReadsBackLastWordWritten :
    (∃ t, step (host State.reset 0x00 (.write 0xFFFFFFFF)) = .next t)
    ∧ (∀ w, ({ off := 0x44, bytes := 4, op := .write 5 } : HostAccess) ≠ { off := 0x00, bytes := 4, op := .write w })
    ∧ (∃ t, step (host State.reset 0x44 (.write 5)) = .next t)
    ∧ (∀ w, ({ off := 0x00, bytes := 4, op := .read } : HostAccess) ≠ { off := 0x00, bytes := 4, op := .write w })
    ∧ ∃ t, step (host State.reset 0x00 .read) = .next t :=
  ⟨exists_next (by decide +kernel), (fun w h => by cases h), exists_next (by decide +kernel),
    (fun w h => by cases h), exists_next (by decide +kernel)⟩

theorem witness_OnlyIllFormedAccessesAreRefused :
    (host full 0xFF .read).pending = [.access { off := 0xFF, bytes := 4, op := .read }]
    ∧ (0xFF#8).toNat % 4 ≠ 0 ∧ (0xFC#8).toNat % 4 = 0 ∧ (8 : Nat) ≠ 4 := by decide

theorem witness_UnmappedOffsetsReadZeroAndIgnoreWrites :
    (host full 0x80 (.write 7)).pending = [.access { off := 0x80, bytes := 4, op := .write 7 }]
    ∧ (0x80#8).toNat % 4 = 0 ∧ 0x80 ≤ (0x80#8).toNat ∧ (0xFC#8).toNat % 4 = 0 ∧ 0x80 ≤ (0xFC#8).toNat
    ∧ (0x38#8).toNat % 4 = 0 ∧ (0x3C#8).toNat % 4 = 0 ∧ (0x5C#8).toNat % 4 = 0 := by decide

/-- The first and the last row of the map, and the port. -/
theorem witness_HostReadsReturnTheRegister :
    (⟨.cmd, 0x00, false, 0xFFFFFFFF⟩ : MapRow) ∈ registerMap
    ∧ (⟨.rxfCodeHi, 0x7C, false, 0xFFFFFFFF⟩ : MapRow) ∈ registerMap
    ∧ (⟨.bufData, 0x48, false, 0xFFFFFFFF⟩ : MapRow) ∈ registerMap
    ∧ (host full 0x7C .read).pending = [.access { off := 0x7C, bytes := 4, op := .read }]
    ∧ (host full 0x48 .read).pending = [.access { off := 0x48, bytes := 4, op := .read }] := by decide

/-- An RW row and an RO row. -/
theorem witness_HostWritesFollowTheAccessKind :
    ((⟨.frameSize, 0x08, true, 0x00001FFF⟩ : MapRow) ∈ registerMap ∧ Reg.frameSize ≠ .cmd ∧ Reg.frameSize ≠ .bufData
      ∧ (host full 0x08 (.write 5)).pending = [.access { off := 0x08, bytes := 4, op := .write 5 }])
    ∧ (⟨.txLen, 0x54, false, 0xFFFFFFFF⟩ : MapRow) ∈ registerMap ∧ Reg.txLen ≠ .cmd ∧ Reg.txLen ≠ .bufData
      ∧ (host full 0x54 (.write 5)).pending = [.access { off := 0x54, bytes := 4, op := .write 5 }] := by decide

theorem witness_RegisterFieldsStandAtTheirBits :
    (⟨.segCfg, 0x34, false, 0x1FFF3F7F⟩ : MapRow) ∈ registerMap
    ∧ (⟨.rxfCtl, 0x70, false, 0x7F07FFFF⟩ : MapRow) ∈ registerMap := by decide

/-- The last word of DAT, written; the first index out of range. -/
theorem witness_BufDataReadReturnsTheWord :
    ∀ k : Word, k = 2047 ∨ k = 2048 →
      (host { full with bufSel := 1, bufIdx := k } 0x48 .read).pending
          = [.access { off := 0x48, bytes := 4, op := .read }]
      ∧ ((Buffer.dat = .pay ↔ (1 : BitVec 2) = 0) ∧ (Buffer.dat = .dat ↔ (1 : BitVec 2) = 1)
        ∧ (Buffer.dat = .tx ↔ (1 : BitVec 2) = 2) ∧ (Buffer.dat = .rx ↔ (1 : BitVec 2) = 3))
      ∧ (k = 2047 → k.toNat < capBits .dat / 32 ∧ full.dat.readBits (32 * k.toNat) 32 = some (zeros 32))
      ∧ (k = 2048 → capBits .dat / 32 ≤ k.toNat) := by
  intro k hk
  refine ⟨rfl, by decide, fun h => ⟨by subst h; decide, ?_⟩, fun h => by subst h; decide⟩
  subst h
  exact full_dat_bits (32 * 2047) 32 (by decide)

theorem witness_BufDataWriteStoresTheWord :
    (host { full with bufSel := 3, bufIdx := 2047 } 0x48 (.write 9)).pending
        = [.access { off := 0x48, bytes := 4, op := .write 9 }]
    ∧ ((Buffer.rx = .pay ↔ (3 : BitVec 2) = 0) ∧ (Buffer.rx = .dat ↔ (3 : BitVec 2) = 1)
      ∧ (Buffer.rx = .tx ↔ (3 : BitVec 2) = 2) ∧ (Buffer.rx = .rx ↔ (3 : BitVec 2) = 3))
    ∧ (2047#32).toNat < capBits .rx / 32 ∧ capBits .rx / 32 ≤ (2048#32).toNat
    ∧ ((Buffer.tx = .pay ↔ (2 : BitVec 2) = 0) ∧ (Buffer.tx = .dat ↔ (2 : BitVec 2) = 1)
      ∧ (Buffer.tx = .tx ↔ (2 : BitVec 2) = 2) ∧ (Buffer.tx = .rx ↔ (2 : BitVec 2) = 3)) := by
  refine ⟨rfl, by decide, by decide, by decide, by decide⟩

theorem witness_HostAddressesReachTheWindow : Config.blockBase + 256 ≤ Config.blockBase + 256 := Nat.le_refl _

theorem witness_CommandsIgnoreAccessesToCome : ∃ t, exec .genCrc8 (withDat [0x41000000] 8) = .next t :=
  exists_next (by decide +kernel)

theorem witness_NopClearsOnlyErr : 0 < (1 : Word).toNat ∧ (1 : Word).toNat < 128 ∧ (127 : Word).toNat < 128 := by decide

theorem witness_ClrClearsErrStickyAndResult :
    Instr.nop ≠ .clr
    ∧ ∃ t, exec .nop { full with status := { Status.reset with sticky := true, result := .valid } } = .next t
      ∧ t.status.err = .none :=
  ⟨by decide, _, rfl, rfl⟩

/-- The greatest length, the least one, and one too long. -/
theorem witness_GenCsumWritesTheChecksum :
    (full.datLen.toNat ≤ 65536 ∧ full.dat.readBits 0 full.datLen.toNat = some (zeros 65536))
    ∧ ((withDat [] 0).datLen.toNat ≤ 65536 ∧ (withDat [] 0).dat.readBits 0 (withDat [] 0).datLen.toNat = some [])
    ∧ 65536 < (withDat [] 65537).datLen.toNat :=
  ⟨⟨full_datLen.le, full_dat⟩, ⟨by decide, rfl⟩, by decide⟩

theorem witness_GenCrcWritesTheCode :
    ((0x00000204, .genCrc32, Config.polyCrc32) : Word × Instr × Bits) ∈
      [(0x00000201, .genCrc8, polyCrc8), (0x00000202, .genCrc10, Config.polyCrc10),
        (0x00000203, .genCrc16, Config.polyCrc16), (0x00000204, .genCrc32, Config.polyCrc32)]
    ∧ (full.datLen.toNat ≤ 65536 ∧ full.dat.readBits 0 full.datLen.toNat = some (zeros 65536))
    ∧ 65536 < (withDat [] 65537).datLen.toNat :=
  ⟨by simp, ⟨full_datLen.le, full_dat⟩, by decide⟩

/-- 15 bits, 16 bits, 65536 bits, 65537 bits. -/
theorem witness_ChkCsumComparesWithTheRecomputed :
    (withDat [] 15).datLen.toNat < 16 ∧ 65536 < (withDat [] 65537).datLen.toNat
    ∧ (zeros 16).length = 16
    ∧ (withDat [0] 16).dat.readBits 0 (withDat [0] 16).datLen.toNat = some ([] ++ zeros 16)
    ∧ full.datLen.toNat ≤ 65536 ∧ full.dat.readBits 0 full.datLen.toNat = some (zeros 65520 ++ zeros 16) :=
  ⟨by decide, by decide, rfl, by decide +kernel, full_datLen.le, by
    rw [full_dat, zeros, zeros, zeros, ← List.replicate_add]⟩

theorem witness_ChkCrcReportsTheRemainder :
    ((0x00000304, .chkCrc32, Config.polyCrc32, 34) : Word × Instr × Bits × Nat) ∈
      [(0x00000301, .chkCrc8, polyCrc8, 8), (0x00000302, .chkCrc10, Config.polyCrc10, 10),
        (0x00000303, .chkCrc16, Config.polyCrc16, 16), (0x00000304, .chkCrc32, Config.polyCrc32, 34)]
    ∧ (withDat [] 7).datLen.toNat < 8 ∧ (withDat [] 9).datLen.toNat < 10 ∧ (withDat [] 15).datLen.toNat < 16
    ∧ (withDat [] 33).datLen.toNat < 34 ∧ 65536 < (withDat [] 65537).datLen.toNat
    ∧ (34 ≤ (withDat [0, 0] 34).datLen.toNat ∧ (withDat [0, 0] 34).datLen.toNat ≤ 65536
      ∧ (withDat [0, 0] 34).dat.readBits 0 (withDat [0, 0] 34).datLen.toNat = some (zeros 34))
    ∧ full.dat.readBits 0 full.datLen.toNat = some (zeros 65536) :=
  ⟨by simp, by decide, by decide, by decide, by decide, by decide, by decide +kernel, full_dat⟩

/-- V-HDR-7's 128 bits, tag 1: region 0. -/
def rx128 : State := withRx [0xC0A80001, 0x0007C0A8, 0x00020009, 0x00108105] 128

/-- V-HDR-6's 128 bits, tag 5. -/
def rxUnknown : State := withRx [0xC0A80001, 0x0007C0A8, 0x00020009, 0x00108500] 128

/-- V-HDR-8 and V-HDR-9: tag 4, one bit short of its code or exactly long enough. -/
def rxCrc32 (n : Word) : State := withRx [0xC0A80001, 0x0007C0A8, 0x00020009, 0x00000400, 0] n

/-- The RX bits below RXB_LEN satisfy `p`. -/
def rxBits (s : State) (p : Bits → Bool) : Bool := ((s.rx.readBits 0 s.rxbLen.toNat).map p).getD false

/-- Too long; 127 bits; tag 4 in 153 and in 154 bits; tag 1 in 128 bits; an unknown tag in 128 bits. -/
theorem witness_HunpackSlicesTheFrame :
    65536 < (withRx [] 65537).rxbLen.toNat
    ∧ rxBits (withRx [0, 0, 0, 0] 127) (fun f => f.length < 128) = true
    ∧ rxBits (rxCrc32 153) (fun f => 128 ≤ f.length && Scheme.crc32.tag.toNat == val (slice f 113 120)
        && f.length < 120 + Scheme.crc32.codeWidth) = true
    ∧ rxBits (rxCrc32 154) (fun f => Scheme.crc32.tag.toNat == val (slice f 113 120)
        && 120 + Scheme.crc32.codeWidth ≤ f.length) = true
    ∧ rxBits rx128 (fun f => Scheme.crc8.tag.toNat == val (slice f 113 120) && 120 + Scheme.crc8.codeWidth ≤ f.length)
        = true
    ∧ rxBits rxUnknown (fun f => 128 ≤ f.length && 5 ≤ val (slice f 113 120)) = true := by
  decide +kernel

theorem witness_UnpackErrorsInOrder :
    65536 < (withRx [] 65537).rxbLen.toNat ∧ (withRx [] 127).rxbLen.toNat < 128
    ∧ 128 ≤ (rxCrc32 153).rxbLen.toNat ∧ (rxCrc32 153).rxbLen.toNat ≤ 65536
    ∧ rxBits (rxCrc32 153) (fun f => Scheme.crc32.tag.toNat == val (slice f 113 120)
        && f.length < 120 + Scheme.crc32.codeWidth) = true := by
  decide +kernel

/-- An unknown tag; a tag that is known; the greatest PAY_LEN; a frame size too small by one; the least accepted. -/
theorem witness_SegStartLatchesTheSegmentation :
    5 ≤ (5#7).toNat ∧ (4#7).toNat < 5
    ∧ Config.params.payCapBits < (withPay [] 0xFFFFFFFF 17).payLen.toNat
    ∧ (withPay [] 65536 17).payLen.toNat ≤ Config.params.payCapBits
    ∧ 8 * (withPay [] 0 16).frameSize.toNat ≤ 120 + Scheme.crc8.codeWidth
    ∧ 120 + Scheme.crc8.codeWidth < 8 * (withPay [] 0 17).frameSize.toNat := by
  have h := payCapWords_bounds
  refine ⟨by decide, by decide, ?_, ?_, by decide, by decide⟩
  · show Config.payCapWords * 32 < 4294967295
    omega
  · show 65536 ≤ Config.payCapWords * 32
    omega

theorem witness_SegNextEmitsTheWindow :
    State.reset.status.segActive = false
    ∧ ((running [0x41420000] 16 1).Inv ∧ (running [0x41420000] 16 1).status.segActive = true
      ∧ Scheme.crc8.tag = (running [0x41420000] 16 1).latch.tag
      ∧ (running [0x41420000] 16 1).pay.readBits 8 (min 8 (16 - 8))
          = some [false, true, false, false, false, false, true, false])
    ∧ (running [] 0 0).Inv ∧ (running [] 0 0).pay.readBits 0 (min 8 (0 - 0)) = some [] :=
  ⟨rfl, ⟨running_one_inv, rfl, rfl, by decide +kernel⟩, running_empty_inv, rfl⟩

/-- V-SEG-5, a checksum frame; tag 0 in exactly 136 bits; the crc-8 and the unknown frames above. -/
theorem witness_ValidateChecksTheWholeFrame :
    65536 < (withRx [] 65537).rxbLen.toNat
    ∧ rxBits (withRx [0, 0, 0, 0] 127) (fun f => f.length < 128) = true
    ∧ rxBits (rxCrc32 153) (fun f => Scheme.crc32.tag.toNat == val (slice f 113 120)
        && f.length < 120 + Scheme.crc32.codeWidth) = true
    ∧ rxBits rxUnknown (fun f => 128 ≤ f.length && 5 ≤ val (slice f 113 120)) = true
    ∧ rxBits (withRx [0, 0, 0, 0, 0] 136) (fun f => val (slice f 113 120) == 0 && 136 ≤ f.length) = true
    ∧ rxBits rx128 (fun f => Scheme.crc8.tag.toNat == val (slice f 113 120) && 120 + (polyCrc8.length - 1) ≤ f.length)
        = true
    ∧ Scheme.crc8.poly? = some polyCrc8 := by
  refine ⟨by decide, by decide +kernel, by decide +kernel, by decide +kernel, by decide +kernel, by decide +kernel, rfl⟩

theorem witness_ErrorsChangeOnlyStatus :
    ∃ t, exec .chkCrc8 (withDat [] 7) = .next t ∧ t.status.err ≠ .none :=
  ⟨_, rfl, by decide⟩

theorem witness_CommandsKeepBuffersAndConfiguration : ∃ t, exec (.hpack 1) (withPay [] 0 0) = .next t := ⟨_, rfl⟩

theorem witness_ResultsHaveTheirOwnWriters :
    (∃ t, exec .hunpack rx128 = .next t) ∧ (∃ t, exec (.segStart 1) (withPay [] 0 17) = .next t)
    ∧ (∃ t, exec .genCrc8 (withDat [] 0) = .next t) ∧ ∃ t, exec .validate rx128 = .next t :=
  ⟨exists_next (by decide +kernel), exists_next (by decide +kernel), exists_next (by decide +kernel),
    exists_next (by decide +kernel)⟩

theorem witness_StickyRecordsErrorsUntilClr :
    (∃ t, exec .segNext State.reset = .next t ∧ t.status.err ≠ .none)
    ∧ (∃ t, exec .clr full = .next t) ∧ ∃ t, exec .nop full = .next t ∧ t.status.err = .none :=
  ⟨⟨_, rfl, by decide⟩, ⟨_, rfl⟩, ⟨_, rfl, rfl⟩⟩

/-- The last bit below the length is the unwritten one. -/
theorem witness_UnwrittenOperandsFault :
    (0 ≤ (withDat [] 1).datLen.toNat ∧ ∃ j < (withDat [] 1).datLen.toNat, (withDat [] 1).dat.bit? j = none) ∧
    (34 ≤ (withDat [0] 34).datLen.toNat ∧ (withDat [0] 34).datLen.toNat ≤ 65536
      ∧ ∃ j < (withDat [0] 34).datLen.toNat, (withDat [0] 34).dat.bit? j = none)
    ∧ (128 ≤ (withRx [0, 0, 0, 0] 129).rxbLen.toNat ∧ (withRx [0, 0, 0, 0] 129).rxbLen.toNat ≤ 65536
      ∧ ∃ j < (withRx [0, 0, 0, 0] 129).rxbLen.toNat, (withRx [0, 0, 0, 0] 129).rx.bit? j = none)
    ∧ ((running [] 8 0).status.segActive = true ∧ ∃ j, (running [] 8 0).segPos.toNat ≤ j
      ∧ j < (running [] 8 0).segPos.toNat
          + min (running [] 8 0).latch.chunk.toNat ((running [] 8 0).latch.payLen.toNat - (running [] 8 0).segPos.toNat)
      ∧ (running [] 8 0).pay.bit? j = none) :=
  ⟨⟨by decide, 0, by decide, rfl⟩, ⟨by decide, by decide, 33, by decide, by decide +kernel⟩, ⟨by decide, by decide, 128, by decide, by decide +kernel⟩,
    rfl, 7, by decide, by decide, rfl⟩

theorem witness_CommandsCompleteOnWrittenOperands :
    (running [0x41420000] 16 1).Inv ∧ (running [0x41420000] 16 1).operandsWritten .segNext = true
    ∧ (running [0x41420000] 16 1).operandsWritten .validate = true
    ∧ (running [0x41420000] 16 1).operandsWritten .genCrc32 = true :=
  ⟨running_one_inv, by decide +kernel, rfl, rfl⟩

/-- SEG.NEXT with other flags beside the same SEG_ACTIVE; a check; an unpacking. -/
theorem witness_FlagsAreNoInputs :
    (∃ t, exec .segNext (running [0x41420000] 16 1) = .next t)
    ∧ (⟨.length, true, .invalid, true, true, true⟩ : Status).segActive
        = (running [0x41420000] 16 1).status.segActive
    ∧ (∃ t, exec .validate rx128 = .next t) ∧ ∃ t, exec .hunpack rx128 = .next t :=
  ⟨exists_next (by decide +kernel), rfl, exists_next (by decide +kernel), exists_next (by decide +kernel)⟩

theorem witness_LatchedRegistersDoNotReachTheSegmentation :
    ∃ t, exec .segNext (running [0x41420000] 16 1) = .next t := exists_next (by decide +kernel)

/-- The window of frame 1 is byte 1 of PAY: one that differs in byte 0. DAT of 8 bits: one that differs above them. RX
of 128 bits: one that differs above them. -/
theorem witness_CommandsReadOnlyTheBitsTheyConsume :
    ((∃ t, exec .segNext (running [0x41420000] 16 1) = .next t)
      ∧ (memory [0x99420000]).readBits 8 (min 8 (16 - 8)) = (memory [0x41420000]).readBits 8 (min 8 (16 - 8)))
    ∧ ((∃ t, exec .genCrc8 (withDat [0x41000000] 8) = .next t)
      ∧ (memory [0x41FFFFFF]).readBits 0 8 = (withDat [0x41000000] 8).dat.readBits 0 8)
    ∧ (∃ t, exec .validate rx128 = .next t)
      ∧ (memory [0xC0A80001, 0x0007C0A8, 0x00020009, 0x00108105, 7]).readBits 0 128 = rx128.rx.readBits 0 128 :=
  ⟨⟨exists_next (by decide +kernel), by decide +kernel⟩, ⟨exists_next (by decide +kernel), by decide +kernel⟩,
    exists_next (by decide +kernel), by decide +kernel⟩

theorem witness_DivisionClearsTheDividedPositions :
    polyCrc8.head? = some true ∧ (zeros 8).length = 0 + (polyCrc8.length - 1)
    ∧ ([true].length = 1 + ([true].length - 1)) := by decide

theorem witness_CrcIsThePolynomialRemainder :
    polyCrc8.head? = some true ∧ polyCrc8.length - 1 ≤ (zeros 8).length ∧ Config.polyCrc32.head? = some true :=
  ⟨rfl, by decide, rfl⟩

theorem witness_FreshCrcValidates : polyCrc8.head? = some true ∧ Config.polyCrc10.head? = some true := ⟨rfl, rfl⟩

theorem witness_CrcIsLinear : (zeros 3).length = [true, true, false].length := rfl

theorem witness_SerialRegisterComputesTheCrc : polyCrc8.head? = some true ∧ Config.polyCrc16.head? = some true :=
  ⟨rfl, rfl⟩

theorem witness_ChecksumSumStaysSixteenBits : (0xFFFF : Nat) ≤ 0xFFFF ∧ (0 : Nat) ≤ 0xFFFF := by decide

theorem witness_ChecksumIgnoresWordOrder :
    [zeros 16, List.replicate 16 true].Perm [List.replicate 16 true, zeros 16]
    ∧ ∀ w ∈ [zeros 16, List.replicate 16 true], w.length = 16 := ⟨List.Perm.swap _ _ _, by decide⟩

/-- The frame V-SEG-1 in RX, and the same with `b` bits from bit `i` on flipped. -/
def flipped (i b : Nat) : State :=
  { withRx frameA 256 with
    rx := Memory.storeBits [] (flipRun (((memory frameA).readBits 0 256).getD []) i b) }

/-- Its first bit, its last bit, and the bits beside the tag field. -/
theorem witness_SingleBitFlipIsDetected :
    rxBits (withRx frameA 256) (fun f => frameTag f == .known .crc8 && f.length == 256) = true
    ∧ Scheme.crc8.poly? = some polyCrc8 ∧ 2 ≤ polyCrc8.count true
    ∧ seen (fun t => (t.status.result, t.status.err)) (exec .validate (withRx frameA 256)) = some (.valid, .none)
    ∧ (∀ i ∈ [0, 112, 120, 255], (i < 113 ∨ 120 ≤ i) ∧ (flipped i 1).rxbLen = (withRx frameA 256).rxbLen
        ∧ (flipped i 1).rx.readBits 0 256 = some (flipRun (((memory frameA).readBits 0 256).getD []) i 1)) := by
  refine ⟨by decide +kernel, rfl, by decide, by decide +kernel, by decide +kernel⟩

/-- Runs of 8 bits at both ends of the frame and on both sides of the tag field. -/
theorem witness_BurstIsDetected :
    rxBits (withRx frameA 256) (fun f => frameTag f == .known .crc8 && f.length == 256) = true
    ∧ Scheme.crc8.poly? = some polyCrc8 ∧ polyCrc8.getLast? = some true
    ∧ seen (fun t => (t.status.result, t.status.err)) (exec .validate (withRx frameA 256)) = some (.valid, .none)
    ∧ 1 ≤ 8 ∧ 8 ≤ Scheme.crc8.codeWidth
    ∧ (∀ i ∈ [0, 105, 120, 248], i + 8 ≤ 256 ∧ (i + 8 ≤ 113 ∨ 120 ≤ i)
        ∧ (flipped i 8).rx.readBits 0 256 = some (flipRun (((memory frameA).readBits 0 256).getD []) i 8)) := by
  refine ⟨by decide +kernel, rfl, by decide, by decide +kernel, by decide, by decide, by decide +kernel⟩

theorem witness_UnpackInvertsPacking :
    (zeros 8).length = Scheme.crc8.codeWidth ∧ (zeros 34).length = Scheme.crc32.codeWidth
    ∧ ([] : Bits).length ≤ 65536 ∧ (zeros 65536).length ≤ 65536 :=
  ⟨rfl, codeWidth_crc32.symm, Nat.zero_le _, by rw [length_zeros]⟩

theorem witness_AcceptedChunksFitTheLengthField :
    ((.crc32, 34, 20, 6, 65374) : Scheme × Nat × Nat × Int × Int) ∈
      [(.checksum, 16, 18, 8, 65392), (.crc8, 8, 17, 8, 65400), (.crc10, 10, 17, 6, 65398),
        (.crc16, 16, 18, 8, 65392), (.crc32, 34, 20, 6, 65374)] ∧ 8191 ≤ 8191 := by decide

theorem witness_EmittedFrameValidates :
    (running [0x41420000] 16 1).Inv ∧ (running [0x41420000] 16 1).status.segActive = true
    ∧ ∃ t, exec .segNext (running [0x41420000] 16 1) = .next t
      ∧ ∃ u : State, u.rxbLen = t.txLen ∧ u.rx.readBits 0 u.rxbLen.toNat = t.tx.readBits 0 t.txLen.toNat := by
  refine ⟨running_one_inv, rfl, ?_⟩
  obtain ⟨t, ht⟩ := exists_next (r := exec .segNext (running [0x41420000] 16 1)) (by decide +kernel)
  exact ⟨t, ht, { t with rx := t.tx, rxbLen := t.txLen }, rfl, rfl⟩

/-- Two full windows of 8 bits, a short tail of 4 bits, and the empty payload. -/
theorem witness_SegmentationEmitsItsWindows :
    (seen (fun t => (t.status.err, t.latch.chunk.toNat)) (exec (.segStart 1) (withPay [0x41420000] 16 17))
        = some (.none, 8) ∧ ((withPay [0x41420000] 16 17).pay.readBits 0 16).isSome = true)
    ∧ (seen (fun t => (t.status.err, t.latch.chunk.toNat)) (exec (.segStart 1) (withPay [0x41420000] 12 17))
        = some (.none, 8) ∧ ((withPay [0x41420000] 12 17).pay.readBits 0 12).isSome = true)
    ∧ seen (fun t => (t.status.err, t.latch.chunk.toNat)) (exec (.segStart 1) (withPay [] 0 17)) = some (.none, 8)
        ∧ ((withPay [] 0 17).pay.readBits 0 0).isSome = true := by decide +kernel

theorem witness_SegmentationLosesNoBit :
    seen (·.status.err) (exec (.segStart 1) (withPay [0x41420000] 16 17)) = some .none
    ∧ ((withPay [0x41420000] 16 17).pay.readBits 0 16).isSome = true := by decide +kernel

end Sys2Proof.Tests
end

section
/-! The OPEN parameters: what the validity check of a configuration asks, and why the parameters pass it. -/
namespace Sys2Proof

theorem Config.polyOk_iff {n : Nat} {g : Bits} :
    Config.polyOk n g = true ↔ g.length = n ∧ g.head? = some true := by
  simp [Config.polyOk]

theorem Config.Params.wf_iff {p : Config.Params} :
    p.wf = true ↔
      (Config.polyOk 11 p.polyCrc10 = true ∧ Config.polyOk 17 p.polyCrc16 = true
        ∧ Config.polyOk 35 p.polyCrc32 = true)
      ∧ (p.payCapBits % 32 = 0 ∧ 65536 ≤ p.payCapBits ∧ p.payCapBits < 4294967296)
      ∧ p.blockBase % 256 = 0 := by
  simp [Config.Params.wf, and_assoc]

theorem Config.params_payCapBits : Config.params.payCapBits = Config.payCapWords * 32 := rfl

/-- The capacity of PAY is a whole number of words and fits a 32-bit length (00_scope.md section 4). -/
theorem Config.params_payCapBits_bounds :
    Config.params.payCapBits % 32 = 0 ∧ 65536 ≤ Config.params.payCapBits
      ∧ Config.params.payCapBits < 4294967296 := by
  obtain ⟨hmin, hmax⟩ := payCapWords_bounds
  rw [Config.params_payCapBits]
  omega

theorem Config.blockBase_mod : Config.blockBase % 256 = 0 := Nat.mul_mod_right 256 Config.blockPage

/-- Settles O5: each polynomial is a leading 1 before a tail of fixed width, the capacity is a bounded number of
words, the base a number of pages. -/
theorem configurationIsValid : Obligations.ConfigurationIsValid := by
  unfold Obligations.ConfigurationIsValid
  have crc10 := Config.polyOk_iff.2 ⟨length_polyCrc10, Scheme.poly?_head (sc := .crc10) rfl⟩
  have crc16 := Config.polyOk_iff.2 ⟨length_polyCrc16, Scheme.poly?_head (sc := .crc16) rfl⟩
  have crc32 := Config.polyOk_iff.2 ⟨length_polyCrc32, Scheme.poly?_head (sc := .crc32) rfl⟩
  exact Config.Params.wf_iff.2
    ⟨⟨crc10, crc16, crc32⟩, Config.params_payCapBits_bounds, Config.blockBase_mod⟩

end Sys2Proof
end

section
/-! What a command writes, as data, and the one lemma about commands that the state obligations rest on: a command
that answers a next state performs one of a few writes, and performs the same write in every state that agrees on the
command's inputs. -/
namespace Sys2Proof

/-- Whether the command's OP is 0x3 (CHK) or 0x8 (VALIDATE) (60_exceptions.md R703). -/
def Instr.isCheck : Instr → Bool
  | .chkCsum | .chkCrc8 | .chkCrc10 | .chkCrc16 | .chkCrc32 | .validate => true
  | .nop | .clr | .genCsum | .genCrc8 | .genCrc10 | .genCrc16 | .genCrc32 | .hpack _ | .hunpack | .segStart _
  | .segNext => false

end Sys2Proof

namespace Sys2Proof.Machine

/-- The fields a command can write: ERR always, every other one only where a value is given. `tx` is the content
stored from bit 0 on, and TX_LEN. -/
structure Writes where
  err       : ErrorCode
  sticky    : Option Bool := none
  result    : Option CheckResult := none
  segActive : Option Bool := none
  segDone   : Option Bool := none
  last      : Option Bool := none
  code      : Option (BitVec 64) := none
  rxf       : Option RxFields := none
  tx        : Option (Bits × Nat) := none
  latch     : Option Latches := none
  segPos    : Option Word := none
  segCount  : Option Word := none

/-- The flags after a write. -/
def Writes.flags (w : Writes) (f : Status) : Status :=
  { err := w.err
    sticky := w.sticky.getD f.sticky
    result := w.result.getD f.result
    segActive := w.segActive.getD f.segActive
    segDone := w.segDone.getD f.segDone
    last := w.last.getD f.last }

/-- The state after a write. -/
def Writes.apply (w : Writes) (s : State) : State :=
  { s with
    status := w.flags s.status
    code := w.code.getD s.code
    rxf := w.rxf.getD s.rxf
    tx := w.tx.elim s.tx fun p => s.tx.storeBits p.1
    txLen := w.tx.elim s.txLen fun p => BitVec.ofNat 32 p.2
    latch := w.latch.getD s.latch
    segPos := w.segPos.getD s.segPos
    segCount := w.segCount.getD s.segCount }

/-- The write of an error (60_exceptions.md R703). -/
def Writes.error (isCheck : Bool) (e : ErrorCode) : Writes :=
  { err := e, sticky := some true, result := if isCheck then some .none else none }

/-- The write of a SEG.NEXT whose window holds `d` (44_segmenter.md R610). -/
def State.frameWrites (s : State) (sc : Scheme) (d : Bits) : Writes :=
  { err := .none
    segActive := some (!s.windowLast)
    segDone := bif s.windowLast then some true else none
    last := some s.windowLast
    code := some (s.frameEmitted sc d).code
    tx := some (padToWord (s.nextFrame sc d), 8 * s.latch.fsize.toNat)
    segPos := some (BitVec.ofNat 32 (s.segPos.toNat + s.windowLen))
    segCount := some (s.segCount + 1) }

/-- What a command may write in a state, one constructor for each way it can end. -/
inductive WritesOf (s : State) : Instr → Writes → Prop
  | error (i : Instr) (e : ErrorCode) (isError : e ≠ .none) (legal : e ≠ .illegalCommand) :
      WritesOf s i (.error i.isCheck e)
  | nop : WritesOf s .nop { err := .none }
  | clr : WritesOf s .clr { err := .none, sticky := some false, result := some .none }
  | gen (sc : Scheme) (bits : Bits) :
      WritesOf s (genInstr sc) { err := .none, code := some (BitVec.ofNat 64 (val (sc.generate bits))) }
  | chk {sc : Scheme} {f : Bits} (long : sc.codeWidth ≤ f.length) :
      WritesOf s (chkInstr sc)
        { err := .none, result := some (.ofCheck (sc.checkOk f)), code := some (BitVec.ofNat 64 (sc.checkCode f)) }
  | hpack (tag : BitVec 7) :
      WritesOf s (.hpack tag) { err := .none, tx := some (s.packedHeader tag ++ zeros 8, 120) }
  | hunpack {f : Bits} {u : RxFields} (unpacked : unpack f = some u) :
      WritesOf s .hunpack { err := .none, rxf := some u }
  | undetermined {f : Bits} {u : RxFields} (unpacked : unpack f = some u) :
      WritesOf s .validate { err := .none, result := some .undetermined, rxf := some u }
  | validated {f : Bits} {u : RxFields} {sc : Scheme} (unpacked : unpack f = some u) (known : frameTag f = .known sc) :
      WritesOf s .validate
        { err := .none, result := some (.ofCheck (sc.checkOk f)), code := some (BitVec.ofNat 64 (sc.checkCode f))
          rxf := some u }
  | segStart {tag : BitVec 7} {sc : Scheme} (known : decodeTag tag = .known sc)
      (fits : s.payLen.toNat ≤ capBits .pay) (positive : 0 < chunkBits s.frameSize.toNat sc) :
      WritesOf s (.segStart tag)
        { err := .none, segActive := some true, segDone := some false, last := some false
          latch := some (s.latched tag sc), segPos := some 0, segCount := some 0 }
  | segNext {sc : Scheme} {d : Bits} (active : s.status.segActive = true) (known : decodeTag s.latch.tag = .known sc)
      (window : d.length = s.windowLen) : WritesOf s .segNext (s.frameWrites sc d)

theorem raiseError_eq_apply (s : State) (isCheck : Bool) {e : ErrorCode} (h : e ≠ .illegalCommand) :
    s.raiseError isCheck e = (Writes.error isCheck e).apply s := by
  have result : (s.status.raise isCheck e).result = (if isCheck then some .none else none).getD s.status.result := by
    cases isCheck <;> simp [h]
  simp only [State.raiseError, State.setStatus, Writes.error, Writes.apply, Writes.flags, ← result]
  rfl

theorem next_raiseError (s : State) (isCheck : Bool) (e : ErrorCode) (h : e ≠ .illegalCommand) :
    (Host.Outcome.next (s.raiseError isCheck e) : Result) = .next ((Writes.error isCheck e).apply s) :=
  congrArg _ (raiseError_eq_apply s isCheck h)

/-- With a segmentation active, SEG_ACTIVE becomes the negation of isLast and SEG_DONE is written by the last frame
only (10_state.md R114). -/
theorem frameEmitted_eq_apply {s : State} (sc : Scheme) (d : Bits) (h : s.status.segActive = true) :
    s.frameEmitted sc d = (s.frameWrites sc d).apply s := by
  have flags : s.status.frameEmitted s.windowLast = (s.frameWrites sc d).flags s.status := by
    cases hl : s.windowLast <;> simp [Status.frameEmitted, State.frameWrites, Writes.flags, hl, h]
  simp only [Writes.apply, ← flags]
  rfl

/-- Two states hold the same length of a buffer and the same bits below it. -/
def State.SameOperand (s s' : State) (b : Buffer) : Prop :=
  s'.len b = s.len b
  ∧ ((s.len b).toNat ≤ capBits b → (s'.buf b).readBits 0 (s.len b).toNat = (s.buf b).readBits 0 (s.len b).toNat)

/-- Two states hold the same inputs of a command (40_control.md R401). -/
def State.SameInputs (s s' : State) : Instr → Prop
  | .nop | .clr => True
  | .genCsum | .genCrc8 | .genCrc10 | .genCrc16 | .genCrc32 | .chkCsum | .chkCrc8 | .chkCrc10 | .chkCrc16
  | .chkCrc32 => s.SameOperand s' .dat
  | .hunpack | .validate => s.SameOperand s' .rx
  | .hpack _ =>
    s'.srcIp = s.srcIp ∧ s'.srcPort = s.srcPort ∧ s'.dstIp = s.dstIp ∧ s'.dstPort = s.dstPort ∧ s'.hdrCtl = s.hdrCtl
  | .segStart _ =>
    s'.srcIp = s.srcIp ∧ s'.srcPort = s.srcPort ∧ s'.dstIp = s.dstIp ∧ s'.dstPort = s.dstPort
      ∧ s'.frameSize = s.frameSize ∧ s'.payLen = s.payLen
  | .segNext =>
    s'.status.segActive = s.status.segActive ∧ s'.latch = s.latch ∧ s'.segPos = s.segPos ∧ s'.segCount = s.segCount
      ∧ (s.status.segActive = true →
          s'.pay.readBits s.segPos.toNat s.windowLen = s.pay.readBits s.segPos.toNat s.windowLen)

theorem State.SameInputs.refl (s : State) (i : Instr) : s.SameInputs s i := by
  cases i <;> simp [State.SameInputs, State.SameOperand]

section operands
variable {s t : State} {b : Buffer} {least : Nat} {i : Instr}

/-- A command of one operand writes the same in every state with the same operand, if it does so once its bits are
read. -/
theorem withOperand_writes {c : Bool} {k : State → Bits → Result} (hc : i.isCheck = c)
    (h : withOperand s b least c (k s) = .next t)
    (hk : ∀ bits : Bits, least ≤ bits.length → k s bits = .next t →
      ∃ w, WritesOf s i w ∧ ∀ s', k s' bits = .next (w.apply s')) :
    ∃ w, WritesOf s i w ∧ ∀ s', s.SameOperand s' b → withOperand s' b least c (k s') = .next (w.apply s') := by
  subst hc
  rcases withOperand_next h with ⟨long, -⟩ | ⟨fits, short, -⟩ | ⟨fits, enough, bits, read, hlen, h⟩
  · refine ⟨_, .error i .length (by decide) (by decide), fun s' ⟨len, _⟩ => ?_⟩
    rw [withOperand_of_long (by rwa [len]), raiseError_eq_apply _ _ (by decide)]
  · refine ⟨_, .error i .truncatedFrame (by decide) (by decide), fun s' ⟨len, _⟩ => ?_⟩
    rw [withOperand_of_short (by rwa [len]) (by rwa [len]), raiseError_eq_apply _ _ (by decide)]
  · obtain ⟨w, hw, same⟩ := hk bits (hlen ▸ enough) h
    refine ⟨w, hw, fun s' ⟨len, bits'⟩ => ?_⟩
    rw [withOperand_of_written (by rwa [len]) (by rwa [len]) (by rw [len, bits' fits, read]), same]

theorem generateDat_writes {sc : Scheme} (h : generateDat sc s = .next t) :
    ∃ w, WritesOf s (genInstr sc) w ∧ ∀ s', s.SameOperand s' .dat → generateDat sc s' = .next (w.apply s') :=
  withOperand_writes (k := fun s bits => .next (s.setCode (val (sc.generate bits))).succeed) (by cases sc <;> rfl) h
    fun bits _ _ => ⟨_, .gen sc bits, fun _ => rfl⟩

theorem checkDat_writes {sc : Scheme} (h : checkDat sc s = .next t) :
    ∃ w, WritesOf s (chkInstr sc) w ∧ ∀ s', s.SameOperand s' .dat → checkDat sc s' = .next (w.apply s') :=
  withOperand_writes (k := fun s f => .next (s.recordCheck sc f)) (by cases sc <;> rfl) h
    fun _ long _ => ⟨_, .chk long, fun _ => rfl⟩

theorem execHunpack_writes (h : execHunpack s = .next t) :
    ∃ w, WritesOf s .hunpack w ∧ ∀ s', s.SameOperand s' .rx → execHunpack s' = .next (w.apply s') := by
  refine withOperand_writes (k := fun s f => match unpack f with
    | none => .next (s.raiseError false .truncatedFrame)
    | some u => .next (s.setRxf u).succeed) rfl h fun f _ _ => ?_
  cases hu : unpack f with
  | none =>
    exact ⟨_, .error .hunpack .truncatedFrame (by decide) (by decide),
      fun s' => next_raiseError s' false .truncatedFrame (by decide)⟩
  | some u => exact ⟨_, .hunpack hu, fun _ => rfl⟩

theorem execValidate_writes (h : execValidate s = .next t) :
    ∃ w, WritesOf s .validate w ∧ ∀ s', s.SameOperand s' .rx → execValidate s' = .next (w.apply s') := by
  refine withOperand_writes (k := fun s f => match unpack f with
    | none => .next (s.raiseError true .truncatedFrame)
    | some u => .next (s.validated f u)) rfl h fun f _ _ => ?_
  cases hu : unpack f with
  | none =>
    exact ⟨_, .error .validate .truncatedFrame (by decide) (by decide),
      fun s' => next_raiseError s' true .truncatedFrame (by decide)⟩
  | some u =>
    cases ht : frameTag f with
    | unknown raw => exact ⟨_, .undetermined hu, fun s' => by simp only [State.validated, ht]; rfl⟩
    | known sc => exact ⟨_, .validated hu ht, fun s' => by simp only [State.validated, ht]; rfl⟩

end operands

section segmenter
variable {s t : State}

/-- SEG.START reads no buffer, so it answers a next state always. -/
theorem execSegStart_writes (s : State) (tag : BitVec 7) :
    ∃ w, WritesOf s (.segStart tag) w
      ∧ ∀ s', s.SameInputs s' (.segStart tag) → execSegStart tag s' = .next (w.apply s') := by
  cases ht : decodeTag tag with
  | unknown raw =>
    refine ⟨_, .error _ .unsupportedScheme (by decide) (by decide), fun s' _ => ?_⟩
    simp only [execSegStart, ht]
    exact next_raiseError s' false .unsupportedScheme (by decide)
  | known sc =>
    by_cases long : capBits .pay < s.payLen.toNat
    · refine ⟨_, .error _ .length (by decide) (by decide), fun s' ⟨_, _, _, _, _, hlen⟩ => ?_⟩
      simp only [execSegStart, ht, hlen, if_pos long]
      exact next_raiseError s' false .length (by decide)
    by_cases small : chunkBits s.frameSize.toNat sc ≤ 0
    · refine ⟨_, .error _ .frameTooSmall (by decide) (by decide), fun s' ⟨_, _, _, _, hsize, hlen⟩ => ?_⟩
      simp only [execSegStart, ht, hlen, hsize, if_neg long, if_pos small]
      exact next_raiseError s' false .frameTooSmall (by decide)
    · refine ⟨_, .segStart ht (by omega) (by omega), fun s' ⟨hsip, hsport, hdip, hdport, hsize, hlen⟩ => ?_⟩
      have latched : s'.latched tag sc = s.latched tag sc := by
        simp only [State.latched, hsip, hsport, hdip, hdport, hsize, hlen]
      simp only [execSegStart, ht, hlen, hsize, if_neg long, if_neg small, ← latched]
      rfl

/-- The window and the frame are functions of the latches and SEG_POS. -/
theorem frameWrites_congr {s' : State} (hlatch : s'.latch = s.latch) (hpos : s'.segPos = s.segPos)
    (hcount : s'.segCount = s.segCount) (sc : Scheme) (d : Bits) : s'.frameWrites sc d = s.frameWrites sc d := by
  simp only [State.frameWrites, State.frameEmitted_code, State.nextFrame, State.windowLast, State.windowLen, hlatch,
    hpos, hcount]

theorem execSegNext_writes (h : execSegNext s = .next t) :
    ∃ w, WritesOf s .segNext w ∧ ∀ s', s.SameInputs s' .segNext → execSegNext s' = .next (w.apply s') := by
  rcases execSegNext_next h with ⟨idle, -⟩ | ⟨active, d, sc, read, hlen, ht, -⟩
  · refine ⟨_, .error _ .sequence (by decide) (by decide), fun s' ⟨hactive, _⟩ => ?_⟩
    rw [execSegNext, if_neg (by simp [hactive, idle]), raiseError_eq_apply _ _ (by decide)]
    rfl
  · refine ⟨_, .segNext active ht hlen, fun s' ⟨hactive, hlatch, hpos, hcount, hread⟩ => ?_⟩
    have window : s'.windowLen = s.windowLen := by simp only [State.windowLen, hlatch, hpos]
    have read' : (s'.buf .pay).readBits s'.segPos.toNat s'.windowLen = some d := by
      rw [window, hpos, ← read]; exact hread active
    rw [execSegNext, if_pos (hactive.trans active), withBits_of_written read', hlatch, ht,
      ← frameWrites_congr hlatch hpos hcount, ← frameEmitted_eq_apply sc d (hactive.trans active)]

end segmenter

section exec
variable {i : Instr} {s t : State}

/-- A command that answers a next state writes the same in every state with the same inputs. -/
theorem exec_writes_of_sameInputs (h : exec i s = .next t) :
    ∃ w, WritesOf s i w ∧ ∀ s', s.SameInputs s' i → exec i s' = .next (w.apply s') := by
  cases i with
  | nop => exact ⟨_, .nop, fun _ _ => rfl⟩
  | clr => exact ⟨_, .clr, fun _ _ => rfl⟩
  | genCsum => exact generateDat_writes (sc := .checksum) h
  | genCrc8 => exact generateDat_writes (sc := .crc8) h
  | genCrc10 => exact generateDat_writes (sc := .crc10) h
  | genCrc16 => exact generateDat_writes (sc := .crc16) h
  | genCrc32 => exact generateDat_writes (sc := .crc32) h
  | chkCsum => exact checkDat_writes (sc := .checksum) h
  | chkCrc8 => exact checkDat_writes (sc := .crc8) h
  | chkCrc10 => exact checkDat_writes (sc := .crc10) h
  | chkCrc16 => exact checkDat_writes (sc := .crc16) h
  | chkCrc32 => exact checkDat_writes (sc := .crc32) h
  | hpack tag =>
    refine ⟨_, .hpack tag, fun s' ⟨hsip, hsport, hdip, hdport, hctl⟩ => ?_⟩
    have header : s'.packedHeader tag = s.packedHeader tag := by
      simp only [State.packedHeader, State.hdrLen, State.hdrLast, hsip, hsport, hdip, hdport, hctl]
    simp only [exec, execHpack, header]
    rfl
  | hunpack => exact execHunpack_writes h
  | segStart tag => exact execSegStart_writes s tag
  | segNext => exact execSegNext_writes h
  | validate => exact execValidate_writes h

/-- The write that a command performs in a state, and in every state with the same inputs. -/
theorem exec_writes (h : exec i s = .next t) :
    ∃ w, WritesOf s i w ∧ t = w.apply s ∧ ∀ s', s.SameInputs s' i → exec i s' = .next (w.apply s') := by
  obtain ⟨w, hw, same⟩ := exec_writes_of_sameInputs h
  exact ⟨w, hw, Host.Outcome.next.inj (h.symm.trans (same s (.refl s i))), same⟩

/-- What a command that answers a next state leaves. -/
theorem exec_next (h : exec i s = .next t) : ∃ w, WritesOf s i w ∧ t = w.apply s := by
  obtain ⟨w, hw, ht, -⟩ := exec_writes h
  exact ⟨w, hw, ht⟩

end exec

end Sys2Proof.Machine
end

section
/-! What commands keep and what they read: O37, O39, O42 and O44, from the write a command performs. -/
namespace Sys2Proof.Machine
variable {i : Instr} {s t : State} {w : Writes}

/-- Every error sets STICKY (10_state.md R112). -/
theorem WritesOf.sticky_of_error (h : WritesOf s i w) (err : w.err ≠ .none) : w.sticky = some true := by
  cases h with
  | error => rfl
  | _ => exact absurd rfl err

/-- A success other than CLR's leaves STICKY (10_state.md R112). -/
theorem WritesOf.sticky_of_success (h : WritesOf s i w) (err : w.err = .none) (hi : i ≠ .clr) : w.sticky = none := by
  cases h with
  | error _ _ isError => exact absurd err isError
  | clr => exact absurd rfl hi
  | _ => rfl

/-- The bytes a bit-string is stored in do not depend on what stood there. -/
theorem Memory.byte?_storeBits_congr (m n : Memory) (bits : Bits) {a : Nat} (h : a < bits.length / 8) :
    (m.storeBits bits).byte? a = (n.storeBits bits).byte? a := by
  simp [Memory.storeBits, Memory.byte?_storeBytes, h]

/-- How many bytes of TX a write stores. -/
def Writes.txBytes (w : Writes) : Nat := w.tx.elim 0 fun p => p.1.length / 8

theorem Writes.apply_tx_below (w : Writes) (s s' : State) {a : Nat} (h : a < w.txBytes) :
    (w.apply s').tx.byte? a = (w.apply s).tx.byte? a := by
  unfold Writes.txBytes at h
  simp only [Writes.apply]
  cases htx : w.tx with
  | none => simp [htx] at h
  | some p => exact Memory.byte?_storeBits_congr _ _ _ (by simpa [htx] using h)

theorem Writes.apply_tx_above (w : Writes) (s : State) {a : Nat} (h : w.txBytes ≤ a) :
    (w.apply s).tx.byte? a = s.tx.byte? a := by
  unfold Writes.txBytes at h
  simp only [Writes.apply]
  cases htx : w.tx with
  | none => rfl
  | some p => exact Memory.byte?_storeBits_of_outside _ _ (by simpa [htx] using h)

/-- With other buffers, the fields but TX are written the same. -/
theorem Writes.apply_buffers (w : Writes) (s : State) (p d x r : Memory) :
    w.apply { s with pay := p, dat := d, tx := x, rx := r }
      = { w.apply s with
          pay := p, dat := d, rx := r
          tx := (w.apply { s with pay := p, dat := d, tx := x, rx := r }).tx } := rfl

/-- The agreement that `CommandsReadOnlyTheBitsTheyConsume` asks of the buffers is agreement on the inputs. -/
theorem State.SameInputs.of_buffers {p d x r : Memory}
    (hpay : i = .segNext → s.status.segActive = true →
      p.readBits s.segPos.toNat s.windowLen = s.pay.readBits s.segPos.toNat s.windowLen)
    (hdat : i ∈ [.genCsum, .genCrc8, .genCrc10, .genCrc16, .genCrc32, .chkCsum, .chkCrc8, .chkCrc10, .chkCrc16,
        .chkCrc32] → s.datLen.toNat ≤ 65536 → d.readBits 0 s.datLen.toNat = s.dat.readBits 0 s.datLen.toNat)
    (hrx : i ∈ [.hunpack, .validate] →
      s.rxbLen.toNat ≤ 65536 → r.readBits 0 s.rxbLen.toNat = s.rx.readBits 0 s.rxbLen.toNat) :
    s.SameInputs { s with pay := p, dat := d, tx := x, rx := r } i := by
  cases i with
  | nop | clr => trivial
  | hpack tag => exact ⟨rfl, rfl, rfl, rfl, rfl⟩
  | segStart tag => exact ⟨rfl, rfl, rfl, rfl, rfl, rfl⟩
  | segNext => exact ⟨rfl, rfl, rfl, rfl, hpay rfl⟩
  | hunpack | validate => exact ⟨rfl, hrx (by simp)⟩
  | _ => exact ⟨rfl, hdat (by simp)⟩

/-- SEG.NEXT alone has a flag among its inputs, and no command has an RXF register (10_state.md R135). -/
theorem State.SameInputs.of_flags {f : Status} {u : RxFields}
    (h : i = .segNext → f.segActive = s.status.segActive) : s.SameInputs { s with status := f, rxf := u } i := by
  cases i with
  | segNext => exact ⟨h rfl, rfl, rfl, rfl, fun _ => rfl⟩
  | _ => simp [State.SameInputs, State.SameOperand, State.len, State.buf]

/-- A value written, or what stood there: whether it is written does not depend on what stood there. -/
theorem getD_eq_ite {α : Type} (o : Option α) (a b : α) : o.getD b = if o.isSome then o.getD a else b := by
  cases o <;> rfl

/-- Settles O37: the fields named are none of those a write can reach. -/
theorem commandsKeepBuffersAndConfiguration : Obligations.CommandsKeepBuffersAndConfiguration := by
  unfold Obligations.CommandsKeepBuffersAndConfiguration
  intro i s t h
  obtain ⟨w, -, rfl⟩ := exec_next h
  exact ⟨rfl, rfl, rfl, rfl, rfl, rfl, rfl, rfl, rfl, rfl, rfl, rfl, rfl, rfl, rfl, rfl, rfl, rfl⟩

/-- Settles O39, by what an error, CLR and any other success write to STICKY. -/
theorem stickyRecordsErrorsUntilClr : Obligations.StickyRecordsErrorsUntilClr := by
  unfold Obligations.StickyRecordsErrorsUntilClr
  intro i s t h
  obtain ⟨w, hw, rfl⟩ := exec_next h
  refine ⟨fun err => ?_, fun hi => ?_, fun hi err => ?_⟩
  · exact congrArg (·.getD s.status.sticky) (hw.sticky_of_error err)
  · subst hi
    exact (congrArg (·.status.sticky) (Host.Outcome.next.inj h)).symm
  · exact congrArg (·.getD s.status.sticky) (hw.sticky_of_success err hi)

/-- Settles O42: the flags written are those the write gives a value, and the inputs hold no flag but SEG_ACTIVE. -/
theorem flagsAreNoInputs : Obligations.FlagsAreNoInputs := by
  unfold Obligations.FlagsAreNoInputs
  refine ⟨fun i s t h => ?_, fun i s t h => ?_⟩
  · obtain ⟨w, -, rfl, same⟩ := exec_writes h
    refine ⟨w.sticky.isSome, w.result.isSome, w.segActive.isSome, w.segDone.isSome, w.last.isSome, fun f hf => ?_⟩
    rw [same _ (.of_flags hf)]
    simp only [Writes.apply, Writes.flags, ← getD_eq_ite]
  · obtain ⟨w, -, rfl, same⟩ := exec_writes h
    refine ⟨w.rxf.isSome, fun u => ?_⟩
    rw [same _ (.of_flags fun _ => rfl)]
    simp only [Writes.apply, ← getD_eq_ite]

/-- Settles O44: agreement on the consumed bits is agreement on the inputs, and the same write stores the same bytes of
TX whatever TX held. -/
theorem commandsReadOnlyTheBitsTheyConsume : Obligations.CommandsReadOnlyTheBitsTheyConsume := by
  unfold Obligations.CommandsReadOnlyTheBitsTheyConsume
  intro i s t h
  obtain ⟨w, -, rfl, same⟩ := exec_writes h
  refine ⟨w.txBytes, fun p d x r hpay hdat hrx => ?_⟩
  exact ⟨_, same _ (.of_buffers hpay hdat hrx), w.apply_buffers s p d x r,
    fun a ha => w.apply_tx_below s _ ha, fun a ha => w.apply_tx_above _ ha⟩

end Sys2Proof.Machine
end

section
/-! The invariant: each command's write keeps it, each host access keeps it (O6), and the counters of an active
segmentation stay in range (O7). -/
namespace Sys2Proof.Machine

theorem Latches.consistent_iff {l : Latches} :
    l.Consistent ↔ ∃ sc, decodeTag l.tag = .known sc ∧ l.r.toNat = sc.codeWidth
      ∧ 120 + l.chunk.toNat + sc.codeWidth = 8 * l.fsize.toNat ∧ 0 < l.chunk.toNat ∧ l.payLen.toNat ≤ capBits .pay := by
  unfold Latches.Consistent
  cases decodeTag l.tag <;> simp

/-- The latches of a successful SEG.START: the chunk width is positive and fits 16 bits (44_segmenter.md R603). -/
theorem latched_consistent {s : State} {tag : BitVec 7} {sc : Scheme} (known : decodeTag tag = .known sc)
    (fits : s.payLen.toNat ≤ capBits .pay) (positive : 0 < chunkBits s.frameSize.toNat sc) :
    (s.latched tag sc).Consistent := by
  obtain ⟨hlow, hhigh⟩ := codeWidth_bounds sc
  have hsize := s.frameSize.isLt
  have hr : (BitVec.ofNat 6 sc.codeWidth).toNat = sc.codeWidth := Nat.mod_eq_of_lt (by omega)
  have hchunk : ((BitVec.ofInt 16 (chunkBits s.frameSize.toNat sc)).toNat : Int) = chunkBits s.frameSize.toNat sc := by
    rw [BitVec.toNat_ofInt]
    unfold chunkBits at *
    omega
  refine Latches.consistent_iff.2 ⟨sc, known, hr, ?_, ?_, fits⟩
  · unfold chunkBits at hchunk positive
    simp only [State.latched, chunkBits]
    omega
  · simp only [State.latched]
    omega

/-- A window that reaches the end of the payload after `n` full ones is number `n + 1` of `N` (44_segmenter.md R604). -/
theorem Latches.frameCount_eq {l : Latches} {n : Nat} (hchunk : 0 < l.chunk.toNat)
    (hlow : n * l.chunk.toNat < l.payLen.toNat ∨ (l.payLen.toNat = 0 ∧ n = 0))
    (hhigh : l.payLen.toNat ≤ n * l.chunk.toNat + l.chunk.toNat) : l.frameCount = n + 1 := by
  unfold Latches.frameCount
  rcases hlow with hlow | ⟨hempty, rfl⟩
  · have hdiv : (l.payLen.toNat + l.chunk.toNat - 1) / l.chunk.toNat = n + 1 :=
      Nat.div_eq_of_lt_le (by rw [Nat.succ_mul]; omega) (by rw [Nat.succ_mul, Nat.succ_mul]; omega)
    omega
  · rw [hempty, Nat.div_eq_of_lt (by omega)]
    rfl

section running
variable {s : State}

/-- The next window lies in the payload. -/
theorem State.SegRunning.window_fits (h : s.SegRunning) :
    s.segPos.toNat + s.windowLen ≤ s.latch.payLen.toNat := by
  obtain ⟨-, -, -, -, hpos, hlow⟩ := h
  have hle : s.segPos.toNat ≤ s.latch.payLen.toNat := by
    rcases hlow with hlow | ⟨hempty, hcount⟩
    · exact hlow.le
    · simp [hpos, hempty, hcount]
  unfold State.windowLen
  omega

/-- SEG_POS does not wrap (10_state.md R117). -/
theorem State.SegRunning.next_segPos (h : s.SegRunning) :
    (BitVec.ofNat 32 (s.segPos.toNat + s.windowLen)).toNat = s.segPos.toNat + s.windowLen :=
  Nat.mod_eq_of_lt (h.window_fits.trans_lt s.latch.payLen.isLt)

/-- Every window so far was full and not empty, so SEG_COUNT is at most SEG_POS (10_state.md R118). -/
theorem State.SegRunning.segCount_lt (h : s.SegRunning) : s.segCount.toNat < max 1 (capBits .pay) := by
  obtain ⟨-, -, -, hlatch, hpos, hlow⟩ := h
  obtain ⟨sc, -, -, -, hchunk, hcap⟩ := Latches.consistent_iff.1 hlatch
  rcases hlow with hlow | ⟨-, hcount⟩
  · have hle : s.segCount.toNat ≤ s.segPos.toNat := hpos ▸ Nat.le_mul_of_pos_right _ hchunk
    omega
  · simp [hcount]

/-- SEG_COUNT does not wrap (10_state.md R118). -/
theorem State.SegRunning.next_segCount (h : s.SegRunning) : (s.segCount + 1).toNat = s.segCount.toNat + 1 := by
  have hlt := h.segCount_lt
  have hcap := capBits_pay_bounds
  rw [BitVec.toNat_add]
  exact Nat.mod_eq_of_lt (by simp; omega)

end running

/-- With SEG_ACTIVE set, the segmenter is in its running phase. -/
theorem State.Inv.running {s : State} (h : s.Inv) (active : s.status.segActive = true) : s.SegRunning := by
  rcases h.segmenter with ⟨idle, -⟩ | running | ⟨finished, -⟩
  · simp [idle] at active
  · exact running
  · simp [finished] at active

theorem State.Inv.latch_consistent {s : State} (h : s.Inv) (active : s.status.segActive = true) :
    s.latch.Consistent := by
  obtain ⟨-, -, -, hlatch, -⟩ := h.running active
  exact hlatch

theorem params_payCapBits_eq : Config.params.payCapBits = capBits .pay := by
  simp only [Config.params_payCapBits, capBits, capWords]

/-- Settles O7, by the bounds of the running phase. -/
theorem segmenterCountersNeverWrap : Obligations.SegmenterCountersNeverWrap := by
  unfold Obligations.SegmenterCountersNeverWrap
  intro s t hinv active h
  have running := hinv.running active
  rcases execSegNext_next h with ⟨idle, -⟩ | ⟨-, d, sc, -, -, -, rfl⟩
  · simp [idle] at active
  · refine ⟨running.next_segCount, running.next_segPos, ?_⟩
    rw [State.frameEmitted_segCount, running.next_segCount, params_payCapBits_eq]
    exact running.segCount_lt

/-- The frame of a consistent segmentation has the latched size (44_segmenter.md R607). -/
theorem length_nextFrame {s : State} {sc : Scheme} {d : Bits} (hlatch : s.latch.Consistent)
    (known : decodeTag s.latch.tag = .known sc) (window : d.length = s.windowLen) :
    (s.nextFrame sc d).length = 8 * s.latch.fsize.toNat ∧ s.latch.r.toNat = sc.codeWidth := by
  obtain ⟨sc', known', hr, hsize, -, -⟩ := Latches.consistent_iff.1 hlatch
  obtain rfl : sc' = sc := TagValue.known.inj (known'.symm.trans known)
  exact ⟨(length_segFrame _ _ _ _ (window ▸ windowLen_le_chunk s)).trans hsize, hr⟩

theorem val_drop_lt (f : Bits) {r : Nat} (h : r ≤ 34) : val (f.drop (f.length - r)) < 2 ^ 34 :=
  (val_lt _).trans_le (Nat.pow_le_pow_right (by decide) (by rw [List.length_drop]; omega))

/-- An unpacked code has at most 34 bits (10_state.md R130). -/
theorem unpack_code_lt {f : Bits} {u : RxFields} (h : unpack f = some u) : u.code.toNat < 2 ^ 34 := by
  unfold unpack at h
  split_ifs at h
  split at h
  · split_ifs at h
    obtain rfl := Option.some.inj h
    exact (Nat.mod_le _ _).trans_lt (val_drop_lt f (codeWidth_bounds _).2)
  · obtain rfl := Option.some.inj h
    simp [unpackedFields]

theorem codeWidth_le_of_unpack {f : Bits} {u : RxFields} {sc : Scheme} (h : unpack f = some u)
    (known : frameTag f = .known sc) : sc.codeWidth ≤ f.length := by
  by_contra short
  have : unpack f = none := unpack_eq_none_iff.2 (.inr ⟨sc, known, by omega⟩)
  simp [this] at h

/-- The last window ends the segmentation (44_segmenter.md R606, R612). -/
theorem State.SegRunning.frameEmitted_finished {s : State} (h : s.SegRunning) (last : s.windowLast = true)
    (sc : Scheme) (d : Bits) : (s.frameEmitted sc d).SegFinished := by
  have next_segPos := h.next_segPos
  have next_segCount := h.next_segCount
  have fits := h.window_fits
  obtain ⟨hactive, hdone, hlast, hlatch, hpos, hlow⟩ := h
  obtain ⟨-, -, -, -, hchunk, -⟩ := Latches.consistent_iff.1 hlatch
  have hhigh : s.latch.payLen.toNat ≤ s.segPos.toNat + s.latch.chunk.toNat := of_decide_eq_true last
  have hend : s.segPos.toNat + s.windowLen = s.latch.payLen.toNat := by
    unfold State.windowLen at *
    omega
  refine ⟨by simp [last], by simp [last], by simp [last], hlatch, ?_, ?_⟩
  · exact BitVec.eq_of_toNat_eq (next_segPos.trans hend)
  · refine next_segCount.trans (Latches.frameCount_eq hchunk ?_ (hpos ▸ hhigh)).symm
    rw [← hpos]
    exact hlow.imp_right fun ⟨hempty, hcount⟩ => ⟨by simp [hempty], by simp [hcount]⟩

/-- A window that is not the last is full, and the next one follows it (44_segmenter.md R604, R610). -/
theorem State.SegRunning.frameEmitted_running {s : State} (h : s.SegRunning) (more : s.windowLast = false)
    (sc : Scheme) (d : Bits) : (s.frameEmitted sc d).SegRunning := by
  have next_segPos := h.next_segPos
  have next_segCount := h.next_segCount
  obtain ⟨hactive, hdone, hlast, hlatch, hpos, hlow⟩ := h
  have hhigh : ¬s.latch.payLen.toNat ≤ s.segPos.toNat + s.latch.chunk.toNat := of_decide_eq_false more
  have hfull : s.windowLen = s.latch.chunk.toNat := by
    unfold State.windowLen
    omega
  have hnext : (s.frameEmitted sc d).segPos.toNat = s.segPos.toNat + s.latch.chunk.toNat := hfull ▸ next_segPos
  refine ⟨by simp [more, hactive], by simp [more, hdone], by simp [more], hlatch, ?_, .inl ?_⟩
  · rw [hnext, State.frameEmitted_segCount, State.frameEmitted_latch, next_segCount, Nat.succ_mul, hpos]
  · rw [hnext, State.frameEmitted_latch]
    omega

/-- Bytes stored below the capacity keep a buffer in form. -/
theorem bufferOk_storeBytes {b : Buffer} {m : Memory} (h : BufferOk b m) {i : Nat} {vs : List Byte}
    (hi : i + vs.length ≤ capWords b * 4) : BufferOk b (m.storeBytes i vs) := by
  simp only [BufferOk, List.all_eq_true, decide_eq_true_eq] at h ⊢
  obtain ⟨hwf, hbelow⟩ := h
  exact ⟨Memory.wf_storeBytes hwf i vs, Memory.below_storeBytes hbelow i vs hi⟩

section writes
variable {i : Instr} {s : State} {w : Writes}

/-- Every code written has at most 34 bits (10_state.md R115). -/
theorem WritesOf.code_lt (h : WritesOf s i w) (hinv : s.Inv) {c : BitVec 64} (hc : w.code = some c) :
    c.toNat < 2 ^ 34 := by
  have ofNat_lt {v : Nat} (hv : v < 2 ^ 34) : (BitVec.ofNat 64 v).toNat < 2 ^ 34 := (Nat.mod_le _ _).trans_lt hv
  cases h with
  | gen sc bits => cases hc; exact ofNat_lt (val_generate_lt sc bits)
  | chk long => cases hc; exact ofNat_lt (checkCode_lt long)
  | validated unpacked known => cases hc; exact ofNat_lt (checkCode_lt (codeWidth_le_of_unpack unpacked known))
  | @segNext sc d active known window =>
    cases hc
    have hr : s.latch.r.toNat = sc.codeWidth := (length_nextFrame (hinv.latch_consistent active) known window).2
    exact ofNat_lt (val_drop_lt _ (hr ▸ (codeWidth_bounds sc).2))
  | _ => cases hc

theorem WritesOf.rxf_code_lt (h : WritesOf s i w) {u : RxFields} (hu : w.rxf = some u) : u.code.toNat < 2 ^ 34 := by
  cases h with
  | hunpack unpacked | undetermined unpacked | validated unpacked => cases hu; exact unpack_code_lt unpacked
  | _ => cases hu

/-- What is written to TX is whole bytes, reaches up to TX_LEN and lies in TX (10_state.md R126, R131). -/
theorem WritesOf.tx_fits (h : WritesOf s i w) (hinv : s.Inv) {content : Bits} {len : Nat}
    (htx : w.tx = some (content, len)) : content.length % 8 = 0 ∧ len ≤ content.length ∧ content.length ≤ 65536 := by
  cases h with
  | hpack tag => cases htx; simp [State.packedHeader]
  | @segNext sc d active known window =>
    cases htx
    have hframe := (length_nextFrame (hinv.latch_consistent active) known window).1
    obtain ⟨hwords, hlow, hhigh⟩ := length_padToWord (s.nextFrame sc d)
    have hsize := s.latch.fsize.isLt
    omega
  | _ => cases htx

/-- The segmenter's phase after a command: SEG.START begins a segmentation, SEG.NEXT goes on with it
(44_segmenter.md R605, R610). -/
theorem WritesOf.segmenter (h : WritesOf s i w) (hinv : s.Inv) :
    (w.apply s).SegIdle ∨ (w.apply s).SegRunning ∨ (w.apply s).SegFinished := by
  cases h with
  | segStart known fits positive =>
    refine .inr (.inl ⟨rfl, rfl, rfl, latched_consistent known fits positive, (Nat.zero_mul _).symm, ?_⟩)
    rcases Nat.eq_zero_or_pos s.payLen.toNat with hempty | hpos
    · exact .inr ⟨BitVec.eq_of_toNat_eq hempty, rfl⟩
    · exact .inl hpos
  | @segNext sc d active _ _ =>
    rw [← frameEmitted_eq_apply sc d active]
    cases hl : s.windowLast with
    | true => exact .inr (.inr ((hinv.running active).frameEmitted_finished hl sc d))
    | false => exact .inr (.inl ((hinv.running active).frameEmitted_running hl sc d))
  | _ => exact hinv.segmenter

theorem WritesOf.tx_ok (h : WritesOf s i w) (hinv : s.Inv) : BufferOk .tx (w.apply s).tx ∧ (w.apply s).TxOk := by
  unfold State.TxOk
  simp only [Writes.apply]
  cases htx : w.tx with
  | none => exact ⟨hinv.txOk, hinv.txWritten⟩
  | some p =>
    obtain ⟨content, len⟩ := p
    obtain ⟨hbytes, hlen, hcap⟩ := h.tx_fits hinv htx
    have hval : (BitVec.ofNat 32 len).toNat = len := Nat.mod_eq_of_lt (by omega)
    refine ⟨bufferOk_storeBytes hinv.txOk (by rw [length_packBytes]; simp only [capWords]; omega), ?_⟩
    simp only [Option.elim, hval]
    refine ⟨by omega, fun j hj => ?_⟩
    rw [Memory.bit?_storeBits _ _ hbytes, if_pos (by omega), List.getElem?_eq_getElem (by omega)]
    rfl

/-- A command keeps the invariant. -/
theorem WritesOf.keeps_inv (h : WritesOf s i w) (hinv : s.Inv) : (w.apply s).Inv where
  payOk := hinv.payOk
  datOk := hinv.datOk
  txOk := (h.tx_ok hinv).1
  rxOk := hinv.rxOk
  txWritten := (h.tx_ok hinv).2
  errSticky err := congrArg (·.getD s.status.sticky) (h.sticky_of_error err)
  codeWidth := by
    simp only [Writes.apply]
    cases hc : w.code with
    | none => exact hinv.codeWidth
    | some c => exact h.code_lt hinv hc
  rxfCodeWidth := by
    simp only [Writes.apply]
    cases hu : w.rxf with
    | none => exact hinv.rxfCodeWidth
    | some u => exact h.rxf_code_lt hu
  segmenter := h.segmenter hinv

end writes

section host
variable {s : State}

/-- Nothing the invariant speaks of is touched by serving an event, answering a read or moving BUF_IDX, nor is it by
the count of resets. -/
theorem State.Inv.served (h : s.Inv) (pending : List BusEvent) (reply : Option Word) (cmd bufIdx : Word)
    (epoch : Nat) :
    ({ s with pending := pending, reply := reply, cmd := cmd, bufIdx := bufIdx, epoch := epoch } : State).Inv :=
  ⟨h.payOk, h.datOk, h.txOk, h.rxOk, h.txWritten, h.errSticky, h.codeWidth, h.rxfCodeWidth, h.segmenter⟩

theorem State.Inv.raiseError (h : s.Inv) (isCheck : Bool) (e : ErrorCode) : (s.raiseError isCheck e).Inv :=
  ⟨h.payOk, h.datOk, h.txOk, h.rxOk, h.txWritten, fun _ => rfl, h.codeWidth, h.rxfCodeWidth, h.segmenter⟩

/-- The state after reset satisfies the invariant. -/
theorem State.Inv.reset : State.reset.Inv where
  payOk := ⟨rfl, rfl⟩
  datOk := ⟨rfl, rfl⟩
  txOk := ⟨rfl, rfl⟩
  rxOk := ⟨rfl, rfl⟩
  txWritten := ⟨Nat.zero_le _, fun j hj => absurd hj (Nat.not_lt_zero j)⟩
  errSticky h := absurd rfl h
  codeWidth := Nat.two_pow_pos 34
  rxfCodeWidth := Nat.two_pow_pos 34
  segmenter := .inl ⟨rfl, rfl, rfl, rfl, rfl, rfl⟩

theorem State.Inv.platformReset (s : State) : s.platformReset.Inv :=
  State.Inv.reset.served s.pending none 0 0 (s.epoch + 1)

theorem State.Inv.buffer_ok (h : s.Inv) (b : Buffer) : BufferOk b (s.buf b) := by
  cases b with
  | pay => exact h.payOk
  | dat => exact h.datOk
  | tx => exact h.txOk
  | rx => exact h.rxOk

/-- The host writes a buffer other than TX. -/
theorem State.Inv.setBuf (h : s.Inv) {b : Buffer} (hb : b ≠ .tx) {m : Memory} (hm : BufferOk b m) :
    (s.setBuf b m).Inv := by
  cases b with
  | pay => exact ⟨hm, h.datOk, h.txOk, h.rxOk, h.txWritten, h.errSticky, h.codeWidth, h.rxfCodeWidth, h.segmenter⟩
  | dat => exact ⟨h.payOk, hm, h.txOk, h.rxOk, h.txWritten, h.errSticky, h.codeWidth, h.rxfCodeWidth, h.segmenter⟩
  | tx => exact absurd rfl hb
  | rx => exact ⟨h.payOk, h.datOk, h.txOk, hm, h.txWritten, h.errSticky, h.codeWidth, h.rxfCodeWidth, h.segmenter⟩

theorem State.Inv.writePort (h : s.Inv) (v : Word) : (s.writePort v).Inv := by
  unfold State.writePort
  split
  · rename_i stored
    obtain ⟨hrange, hbuf⟩ := stored
    exact (h.setBuf hbuf (bufferOk_storeBytes (h.buffer_ok _) (by rw [length_wordBytes]; omega))).served _ _ _ _ _
  · exact h.served _ _ _ _ _

theorem State.Inv.writeReg (h : s.Inv) (r : Reg) (v : Word) : (s.writeReg r v).Inv := by
  cases r with
  | bufData => exact h.writePort v
  | _ =>
    exact ⟨h.payOk, h.datOk, h.txOk, h.rxOk, h.txWritten, h.errSticky, h.codeWidth, h.rxfCodeWidth, h.segmenter⟩

theorem State.Inv.readAt (h : s.Inv) (off : BitVec 8) : (s.readAt off).Inv := by
  unfold State.readAt
  split <;> exact h.served _ _ _ _ _

end host

/-- Settles O6: a step idles, resets, serves an access that leaves the invariant's fields or stores a word in range,
rejects a word, or runs a command, whose write keeps the invariant. -/
theorem stepKeepsInvariant : Obligations.StepKeepsInvariant := by
  unfold Obligations.StepKeepsInvariant
  intro s t hinv h
  rcases step_next h with ⟨-, rfl⟩ | ⟨e, rest, -, ⟨-, rfl⟩ | ⟨off, rfl⟩ | rfl | ⟨r, v, -, rfl⟩ | ⟨w, err, -, rfl⟩ |
    ⟨w, i, -, h⟩⟩
  · exact hinv
  · exact .platformReset _
  · exact State.Inv.readAt (hinv.served rest s.reply s.cmd s.bufIdx s.epoch) off
  · exact hinv.served rest none s.cmd s.bufIdx s.epoch
  · exact State.Inv.writeReg (hinv.served rest none s.cmd s.bufIdx s.epoch) r v
  · exact State.Inv.raiseError (hinv.served rest none w s.bufIdx s.epoch) _ _
  · obtain ⟨writes, hwrites, rfl⟩ := exec_next h
    exact hwrites.keeps_inv (hinv.served rest none w s.bufIdx s.epoch)

end Sys2Proof.Machine
end

section
/-! The host's accesses: CMD's value and the command it runs (O12, O14), and what a write leaves each register reading
(O18). -/
namespace Sys2Proof.Machine

/-- Settles O12: the step serves the CMD write, and the word decodes. -/
theorem stepRunsDecodedCommand : Obligations.StepRunsDecodedCommand := by
  unfold Obligations.StepRunsDecodedCommand
  have runs (s : State) (w : Word) (i : Instr) (rest : List BusEvent)
      (hp : s.pending = .access { off := 0x00, bytes := 4, op := .write w } :: rest) (hd : decode w = .ok i) :
      step s = exec i { s with pending := rest, reply := none, cmd := w } := by
    rw [step_of_event hp, serve_command, runCommand, hd]
  refine ⟨runs, fun s nbits w i hd => ?_⟩
  have decodes : decode (tableWord nbits w) = .ok i := by
    unfold decodeTableWord at hd
    split at hd
    · rename_i i' hi'
      rw [hi', Option.some.inj hd]
    · cases hd
  exact runs _ (tableWord nbits w) i s.pending rfl decodes

section cmd
variable {s t : State}

theorem exec_cmd {i : Instr} (h : exec i s = .next t) : t.cmd = s.cmd := by
  obtain ⟨w, -, rfl⟩ := exec_next h
  rfl

/-- CMD holds the word, whether it ran or was rejected (10_state.md R109). -/
theorem runCommand_cmd {w : Word} (h : runCommand w s = .next t) : t.cmd = w := by
  unfold runCommand at h
  split at h
  · exact exec_cmd h
  · obtain rfl := Host.Outcome.next.inj h
    rfl

theorem readAt_cmd (s : State) (off : BitVec 8) : (s.readAt off).cmd = s.cmd := by
  unfold State.readAt
  split <;> rfl

theorem writePort_cmd (s : State) (v : Word) : (s.writePort v).cmd = s.cmd := by
  unfold State.writePort
  split <;> simp

theorem writeReg_cmd (s : State) (r : Reg) (v : Word) : (s.writeReg r v).cmd = s.cmd := by
  cases r with
  | bufData => exact writePort_cmd s v
  | _ => rfl

/-- A write elsewhere than at offset 0 leaves CMD. -/
theorem writeAt_cmd {off : BitVec 8} {v : Word} (h : writeAt off v s = .next t) (hoff : off ≠ 0) : t.cmd = s.cmd := by
  unfold writeAt at h
  split at h
  · obtain rfl := Host.Outcome.next.inj h
    rfl
  · rename_i hreg
    exact absurd (regAt_eq_some hreg).symm hoff
  · obtain rfl := Host.Outcome.next.inj h
    exact writeReg_cmd _ _ _

/-- A served access that is no write of CMD leaves CMD. -/
theorem serve_access_cmd {s t : State} {a : HostAccess} (h : serve (.access a) s = .next t)
    (ha : ∀ w, a ≠ { off := 0x00, bytes := 4, op := .write w }) : t.cmd = s.cmd := by
  obtain ⟨off, bytes, op⟩ := a
  simp only [serve, serveAccess] at h
  split_ifs at h with hwidth
  cases op with
  | read =>
    obtain rfl := Host.Outcome.next.inj h
    exact readAt_cmd _ _
  | write v =>
    refine writeAt_cmd h fun hoff => ha v ?_
    have hbytes : bytes = 4 := by simpa [HostAccess.fullWidth] using hwidth
    rw [show off = 0 from hoff, hbytes]

end cmd

/-- Settles O14, by what serving an access does to CMD. -/
theorem cmdReadsBackLastWordWritten : Obligations.CmdReadsBackLastWordWritten := by
  unfold Obligations.CmdReadsBackLastWordWritten
  refine ⟨fun s t w rest hp h => ?_, fun s t a rest hp ha h => ?_, rfl⟩
  · rw [step_of_event hp, serve_command] at h
    exact runCommand_cmd h
  · rw [step_of_event hp] at h
    exact serve_access_cmd (s := { s with pending := rest }) h ha

theorem registerMap_off : ∀ row ∈ registerMap, row.off = regOffset row.reg := by decide

/-- How many bits a host write sets, of the registers that hold what the host wrote (10_state.md R102). -/
def writeWidth : Reg → Option Nat
  | .frameSize => some 13
  | .srcPort | .dstPort => some 16
  | .hdrCtl => some 17
  | .bufSel => some 2
  | .srcIp | .dstIp | .bufIdx | .payLen | .datLen | .rxbLen => some 32
  | .cmd | .status | .codeLo | .codeHi | .segChunk | .segPos | .segCount | .segCfg | .bufData | .txLen | .rxfSrcIp
  | .rxfSrcPort | .rxfDstIp | .rxfDstPort | .rxfCtl | .rxfRegion | .rxfCodeLo | .rxfCodeHi => none

/-- The RW rows of the map are the registers with a width, and their masks hold that many bits. -/
theorem registerMap_writeWidth : ∀ row ∈ registerMap,
    row.rw = (writeWidth row.reg).isSome
    ∧ ∀ n ∈ writeWidth row.reg, n ≤ 32 ∧ row.mask = BitVec.ofNat 32 (2 ^ n - 1) := by decide

/-- Cutting a word to its low `n` bits clears the others. -/
theorem setWidth_setWidth_eq_and (v : Word) {n : Nat} (h : n ≤ 32) :
    (v.setWidth n).setWidth 32 = v &&& BitVec.ofNat 32 (2 ^ n - 1) := by
  have hpow : 2 ^ n ≤ 2 ^ 32 := Nat.pow_le_pow_right (by decide) h
  have hpos := Nat.two_pow_pos n
  have hmod : v.toNat % 2 ^ n < 2 ^ n := Nat.mod_lt _ hpos
  apply BitVec.eq_of_toNat_eq
  rw [BitVec.toNat_setWidth, BitVec.toNat_setWidth, BitVec.toNat_and, BitVec.toNat_ofNat,
    Nat.mod_eq_of_lt (a := 2 ^ n - 1) (by omega), Nat.and_two_pow_sub_one_eq_mod, Nat.mod_eq_of_lt (by omega)]

section writeReg
variable (s : State) (v : Word) {r r' : Reg}

theorem readReg_writeReg_same (hr : r ≠ .bufData) :
    (s.writeReg r v).readReg r = (writeWidth r).elim (s.readReg r) fun n => (v.setWidth n).setWidth 32 := by
  cases r with
  | bufData => exact absurd rfl hr
  | _ => rfl

/-- A write reaches one register. -/
theorem readReg_writeReg_ne (hr : r ≠ .bufData) (hr' : r' ≠ .bufData) (hne : r' ≠ r) :
    (s.writeReg r v).readReg r' = s.readReg r' := by
  have reach : (s.writeReg r v).readReg r' = if r' = r then (s.writeReg r v).readReg r else s.readReg r' := by
    cases r with
    | bufData => exact absurd rfl hr
    | _ =>
      cases r' with
      | bufData => exact absurd rfl hr'
      | _ => rfl
  rw [reach, if_neg hne]

theorem writeReg_latch (hr : r ≠ .bufData) : (s.writeReg r v).latch = s.latch := by
  cases r with
  | bufData => exact absurd rfl hr
  | _ => rfl

theorem writeReg_buf (hr : r ≠ .bufData) (b : Buffer) : (s.writeReg r v).buf b = s.buf b := by
  cases r with
  | bufData => exact absurd rfl hr
  | _ => rfl

end writeReg

/-- A row of the map reads, after a write, what its kind of access and its mask say. -/
theorem readReg_writeReg_row (s : State) (v : Word) {row : MapRow} (hrow : row ∈ registerMap)
    (hdata : row.reg ≠ .bufData) :
    (s.writeReg row.reg v).readReg row.reg = if row.rw then v &&& row.mask else s.readReg row.reg := by
  obtain ⟨hrw, hmask⟩ := registerMap_writeWidth row hrow
  rw [readReg_writeReg_same s v hdata, hrw]
  cases hn : writeWidth row.reg with
  | none => rfl
  | some n =>
    obtain ⟨hle, hmask⟩ := hmask n hn
    rw [hmask]
    exact setWidth_setWidth_eq_and v hle

/-- Settles O18: the row's offset is its register's, and the write of a register reaches that register only. -/
theorem hostWritesFollowTheAccessKind : Obligations.HostWritesFollowTheAccessKind := by
  unfold Obligations.HostWritesFollowTheAccessKind
  intro s row v rest hrow hcmd hdata hp
  have hstep : step s = .next (({ s with pending := rest, reply := none } : State).writeReg row.reg v) := by
    rw [step_of_event hp, registerMap_off row hrow, serve_writeReg _ hcmd]
  refine ⟨_, hstep, ?_, fun r hne hr => ?_, writeReg_latch _ v hdata, writeReg_buf _ v hdata⟩
  · exact readReg_writeReg_row _ v hrow hdata
  · exact readReg_writeReg_ne _ v hdata hr hne

end Sys2Proof.Machine
end

section
/-! The fields of the composed views stand at their bits (O19). -/
namespace Sys2Proof.Machine

section views

theorem Status.word_getLsbD (f : Status) (i : Nat) :
    f.word.getLsbD i
      = if i < 3 then f.err.code.getLsbD i else if i < 4 then f.sticky else if i < 6 then f.result.code.getLsbD (i - 4)
        else if i < 8 then false else if i < 9 then f.segActive else if i < 10 then f.segDone
        else if i < 11 then f.last else false := by
  rw [show f.word = (0#21 ++ BitVec.ofBool f.last ++ BitVec.ofBool f.segDone ++ BitVec.ofBool f.segActive ++ 0#2
    ++ f.result.code ++ BitVec.ofBool f.sticky ++ f.err.code : BitVec (21 + 1 + 1 + 1 + 2 + 2 + 1 + 3)) from rfl]
  simp only [BitVec.getLsbD_append, BitVec.getLsbD_zero, BitVec.getLsbD_ofBool]
  grind (splits := 20)

theorem Latches.cfgWord_getLsbD (l : Latches) (i : Nat) :
    l.cfgWord.getLsbD i
      = if i < 7 then l.tag.getLsbD i else if i < 8 then false else if i < 14 then l.r.getLsbD (i - 8)
        else if i < 16 then false else if i < 29 then l.fsize.getLsbD (i - 16) else false := by
  rw [show l.cfgWord = (0#3 ++ l.fsize ++ 0#2 ++ l.r ++ 0#1 ++ l.tag : BitVec (3 + 13 + 2 + 6 + 1 + 7)) from rfl]
  simp only [BitVec.getLsbD_append, BitVec.getLsbD_zero]
  grind (splits := 20)

theorem RxFields.ctlWord_getLsbD (u : RxFields) (i : Nat) :
    u.ctlWord.getLsbD i
      = if i < 16 then u.len.getLsbD i else if i < 17 then u.last else if i < 18 then u.known
        else if i < 19 then u.lenErr else if i < 24 then false else if i < 31 then u.tag.getLsbD (i - 24) else false := by
  rw [show u.ctlWord = (0#1 ++ u.tag ++ 0#5 ++ BitVec.ofBool u.lenErr ++ BitVec.ofBool u.known ++ BitVec.ofBool u.last
    ++ u.len : BitVec (1 + 7 + 5 + 1 + 1 + 1 + 16)) from rfl]
  simp only [BitVec.getLsbD_append, BitVec.getLsbD_zero, BitVec.getLsbD_ofBool]
  grind (splits := 20)

/-- A 64-bit register is its two words. -/
theorem toNat_eq_words (c : BitVec 64) :
    c.toNat = (c.extractLsb' 32 32).toNat * 2 ^ 32 + (c.extractLsb' 0 32).toNat := by
  have hc := c.isLt
  simp only [BitVec.extractLsb'_toNat, Nat.shiftRight_eq_div_pow]
  omega

/-- A word has no bit outside a mask when each of its bits at a 0 of the mask is 0. -/
theorem and_not_eq_zero {x m : Word} (h : ∀ i < 32, m.getLsbD i = false → x.getLsbD i = false) : x &&& ~~~m = 0 := by
  apply BitVec.eq_of_getLsbD_eq
  intro i hi
  have := h i hi
  cases hm : m.getLsbD i <;> simp_all

theorem setWidth_and_not {n : Nat} (x : BitVec n) {m : Word} (h : ∀ i < 32, m.getLsbD i = false → n ≤ i) :
    x.setWidth 32 &&& ~~~m = 0 :=
  and_not_eq_zero fun i hi hm => by simp [BitVec.getLsbD_of_ge x i (h i hi hm)]

/-- A field of a view, read at its bits. -/
theorem extractLsb'_eq {w : Word} {a n : Nat} {x : BitVec n} (h : ∀ i < n, w.getLsbD (a + i) = x.getLsbD i) :
    w.extractLsb' a n = x := by
  apply BitVec.eq_of_getLsbD_eq
  intro i hi
  simp [hi, h i hi]

theorem Status.word_outside (f : Status) : f.word &&& ~~~(0x0000073F : Word) = 0 :=
  and_not_eq_zero fun i hi hm => by
    rw [Status.word_getLsbD]
    interval_cases i <;> simp at hm ⊢

theorem Latches.cfgWord_outside (l : Latches) : l.cfgWord &&& ~~~(0x1FFF3F7F : Word) = 0 :=
  and_not_eq_zero fun i hi hm => by
    rw [Latches.cfgWord_getLsbD]
    interval_cases i <;> simp at hm ⊢

theorem RxFields.ctlWord_outside (u : RxFields) : u.ctlWord &&& ~~~(0x7F07FFFF : Word) = 0 :=
  and_not_eq_zero fun i hi hm => by
    rw [RxFields.ctlWord_getLsbD]
    interval_cases i <;> simp at hm ⊢

/-- No register reads a bit outside its implemented bits (10_state.md R134). -/
theorem readReg_outside (s : State) : ∀ row ∈ registerMap, s.readReg row.reg &&& ~~~row.mask = 0 := by
  have full (x : Word) : x &&& ~~~(0xFFFFFFFF : Word) = 0 := BitVec.and_zero
  have status := s.status.word_outside
  have cfg := s.latch.cfgWord_outside
  have ctl := s.rxf.ctlWord_outside
  have frameSize := setWidth_and_not s.frameSize (m := 0x00001FFF) (by decide)
  have hdrCtl := setWidth_and_not s.hdrCtl (m := 0x0001FFFF) (by decide)
  have bufSel := setWidth_and_not s.bufSel (m := 0x00000003) (by decide)
  have half (x : BitVec 16) := setWidth_and_not x (m := 0x0000FFFF) (by decide)
  simp only [registerMap, List.forall_mem_append, List.forall_mem_cons, List.not_mem_nil, false_implies,
    implies_true, and_true]
  exact ⟨⟨⟨full _, status, frameSize, full _, half _, full _, half _, hdrCtl, full _, full _, half _, full _, full _,
    cfg⟩, bufSel, full _, full _, full _, full _, full _, full _⟩, full _, half _, full _, half _, ctl, full _, full _,
    full _⟩

end views

section fields
variable (s : State)

/-- The fields of STATUS (10_state.md R110). -/
theorem readReg_status_fields :
    (s.readReg .status).extractLsb' 0 3 = s.status.err.code ∧ (s.readReg .status).getLsbD 3 = s.status.sticky
    ∧ (s.readReg .status).extractLsb' 4 2 = s.status.result.code
    ∧ (s.readReg .status).getLsbD 8 = s.status.segActive ∧ (s.readReg .status).getLsbD 9 = s.status.segDone
    ∧ (s.readReg .status).getLsbD 10 = s.status.last := by
  simp only [State.readReg, Status.word_getLsbD]
  refine ⟨extractLsb'_eq fun i hi => ?_, rfl, extractLsb'_eq fun i hi => ?_, rfl, rfl, rfl⟩
  · rw [Status.word_getLsbD, if_pos (by omega), Nat.zero_add]
  · rw [Status.word_getLsbD, if_neg (by omega), if_neg (by omega), if_pos (by omega), Nat.add_sub_cancel_left]

/-- The fields of SEG_CFG (10_state.md R119). -/
theorem readReg_segCfg_fields :
    (s.readReg .segCfg).extractLsb' 0 7 = s.latch.tag ∧ (s.readReg .segCfg).extractLsb' 8 6 = s.latch.r
    ∧ (s.readReg .segCfg).extractLsb' 16 13 = s.latch.fsize := by
  simp only [State.readReg]
  refine ⟨extractLsb'_eq fun i hi => ?_, extractLsb'_eq fun i hi => ?_, extractLsb'_eq fun i hi => ?_⟩
  · rw [Latches.cfgWord_getLsbD, if_pos (by omega), Nat.zero_add]
  · rw [Latches.cfgWord_getLsbD, if_neg (by omega), if_neg (by omega), if_pos (by omega), Nat.add_sub_cancel_left]
  · rw [Latches.cfgWord_getLsbD, if_neg (by omega), if_neg (by omega), if_neg (by omega), if_neg (by omega),
      if_pos (by omega), Nat.add_sub_cancel_left]

/-- The fields of RXF_CTL (10_state.md R128). -/
theorem readReg_rxfCtl_fields :
    (s.readReg .rxfCtl).extractLsb' 0 16 = s.rxf.len ∧ (s.readReg .rxfCtl).getLsbD 16 = s.rxf.last
    ∧ (s.readReg .rxfCtl).getLsbD 17 = s.rxf.known ∧ (s.readReg .rxfCtl).getLsbD 18 = s.rxf.lenErr
    ∧ (s.readReg .rxfCtl).extractLsb' 24 7 = s.rxf.tag := by
  simp only [State.readReg, RxFields.ctlWord_getLsbD]
  refine ⟨extractLsb'_eq fun i hi => ?_, rfl, rfl, rfl, extractLsb'_eq fun i hi => ?_⟩
  · rw [RxFields.ctlWord_getLsbD, if_pos (by omega), Nat.zero_add]
  · rw [RxFields.ctlWord_getLsbD, if_neg (by omega), if_neg (by omega), if_neg (by omega), if_neg (by omega),
      if_neg (by omega), if_pos (by omega), Nat.add_sub_cancel_left]

end fields

/-- Settles O19, by where each field of a composed view stands; a narrow register is read at its own value. -/
theorem registerFieldsStandAtTheirBits : Obligations.RegisterFieldsStandAtTheirBits := by
  unfold Obligations.RegisterFieldsStandAtTheirBits
  have narrow {n : Nat} (x : BitVec n) (hn : n ≤ 32) : (x.setWidth 32).toNat = x.toNat :=
    BitVec.toNat_setWidth_of_le hn
  refine ⟨fun s => ?_, fun s => ?_, fun s row hrow => readReg_outside s row hrow, ?_⟩
  · exact ⟨rfl, rfl, rfl, rfl, rfl, rfl, rfl, rfl, rfl, rfl, rfl, rfl, rfl, narrow _ (by decide), narrow _ (by decide),
      narrow _ (by decide), narrow _ (by decide), narrow _ (by decide), narrow _ (by decide), narrow _ (by decide),
      narrow _ (by decide), toNat_eq_words _⟩
  · obtain ⟨err, sticky, result, active, done, last⟩ := readReg_status_fields s
    obtain ⟨tag, r, fsize⟩ := readReg_segCfg_fields s
    obtain ⟨len, isLast, known, lenErr, rxTag⟩ := readReg_rxfCtl_fields s
    exact ⟨err, sticky, result, active, done, last, toNat_eq_words _, tag, r, fsize, len, isLast, known, lenErr, rxTag⟩
  · decide

end Sys2Proof.Machine
end

section
/-! The buffer port (O20, O21): the 32 bits of a buffer word, and what a read and a write of BUF_DATA do. -/
namespace Sys2Proof.Machine

section words

theorem getElem?_bitsOf (n v : Nat) {i : Nat} (h : i < n) : (bitsOf n v)[i]? = some (v.testBit (n - 1 - i)) := by
  induction n generalizing i with
  | zero => omega
  | succ n ih =>
    cases i with
    | zero => rfl
    | succ i =>
      rw [bitsOf, List.getElem?_cons_succ, ih (by omega)]
      congr 2
      omega

/-- The four bytes of a word in stream order (20_memory.md R203): bit `i` from the left is bit `i mod 8` of byte
`i div 8`. -/
theorem wordOfBytes_getLsbD (b0 b1 b2 b3 : Byte) {i : Nat} (h : i < 32) :
    [b0, b1, b2, b3][i / 8]?.map (fun b => b.getMsbD (i % 8))
      = some ((wordOfBytes b0 b1 b2 b3).getLsbD (31 - i)) := by
  simp only [wordOfBytes, BitVec.getLsbD_append]
  interval_cases i <;> simp [BitVec.getMsbD]

theorem bit?_word (m : Memory) (k i : Nat) :
    m.bit? (32 * k + i) = (m.byte? (4 * k + i / 8)).map (fun b => b.getMsbD (i % 8)) := by
  rw [Memory.bit?, show (32 * k + i) / 8 = 4 * k + i / 8 by omega, show (32 * k + i) % 8 = i % 8 by omega]

/-- A word whose four bytes are written is read as its 32 bits, whatever unwritten bytes read as. -/
theorem readBits_word {m : Memory} {k : Nat} (d : Nat → Byte) (h : ∀ a < 4, (m.byte? (4 * k + a)).isSome = true) :
    m.readBits (32 * k) 32 = some (bitsOf 32 (m.wordD d k).toNat) := by
  refine Memory.readBits_eq_some_iff.2 ⟨length_bitsOf _ _, fun i hi => ?_⟩
  obtain ⟨b0, h0⟩ := Option.isSome_iff_exists.1 (h 0 (by omega))
  obtain ⟨b1, h1⟩ := Option.isSome_iff_exists.1 (h 1 (by omega))
  obtain ⟨b2, h2⟩ := Option.isSome_iff_exists.1 (h 2 (by omega))
  obtain ⟨b3, h3⟩ := Option.isSome_iff_exists.1 (h 3 (by omega))
  have hword : m.wordD d k = wordOfBytes b0 b1 b2 b3 := by
    simp only [Memory.wordD, h1, h2, h3, show m.byte? (4 * k) = some b0 from h0, Option.getD_some]
  have hbyte : m.byte? (4 * k + i / 8) = [b0, b1, b2, b3][i / 8]? := by
    have hlt : i / 8 < 4 := by omega
    interval_cases i / 8 <;> assumption
  rw [bit?_word m k i, hbyte, wordOfBytes_getLsbD b0 b1 b2 b3 hi, getElem?_bitsOf 32 _ hi, hword]
  rfl

/-- The bits of a word name its bytes, so they are written when the bits are. -/
theorem byte?_isSome_of_readBits {m : Memory} {k : Nat} {bits : Bits} (h : m.readBits (32 * k) 32 = some bits) :
    ∀ a < 4, (m.byte? (4 * k + a)).isSome = true := by
  intro a ha
  obtain ⟨hlen, hbits⟩ := Memory.readBits_eq_some_iff.1 h
  have hbit := hbits (8 * a) (by omega)
  rw [bit?_word m k, Nat.mul_div_cancel_left a (by decide), List.getElem?_eq_getElem (by omega)] at hbit
  cases hb : m.byte? (4 * k + a) with
  | none => simp [hb] at hbit
  | some b => rfl

/-- A written word has the value of its bits. -/
theorem toNat_wordD {m : Memory} {k : Nat} {bits : Bits} (d : Nat → Byte) (h : m.readBits (32 * k) 32 = some bits) :
    (m.wordD d k).toNat = val bits := by
  have hbits : bits = bitsOf 32 (m.wordD d k).toNat :=
    Option.some.inj (h.symm.trans (readBits_word d (byte?_isSome_of_readBits h)))
  rw [hbits, val_bitsOf_toNat]

/-- A word stored is read back as its 32 bits. -/
theorem readBits_storeWord (m : Memory) (k : Nat) (v : Word) :
    (m.storeWord k v).readBits (32 * k) 32 = some (bitsOf 32 v.toNat) := by
  have hbytes : ∀ a < 4, ((m.storeWord k v).byte? (4 * k + a)).isSome = true := by
    intro a ha
    rw [Memory.storeWord, Memory.byte?_storeBytes, length_wordBytes, if_pos (by omega), Nat.add_sub_cancel_left,
      List.getElem?_eq_getElem (by rw [length_wordBytes]; exact ha)]
    rfl
  have hread := readBits_word (fun _ => 0) hbytes
  rwa [Memory.wordD_storeWord] at hread

end words

section port
variable {s : State} {b : Buffer}

/-- The buffer BUF_SEL selects, by the table of 10_state.md R122. -/
theorem selected_eq_of_table (hpay : b = .pay ↔ s.bufSel = 0) (hdat : b = .dat ↔ s.bufSel = 1)
    (htx : b = .tx ↔ s.bufSel = 2) (hrx : b = .rx ↔ s.bufSel = 3) : s.selected = b := by
  have htable : ∀ sel : BitVec 2, sel = 0 ∨ sel = 1 ∨ sel = 2 ∨ sel = 3 := by decide
  unfold State.selected
  rcases htable s.bufSel with h | h | h | h <;> rw [h]
  · exact (hpay.2 h).symm
  · exact (hdat.2 h).symm
  · exact (htx.2 h).symm
  · exact (hrx.2 h).symm

theorem capBits_div_word (b : Buffer) : capBits b / 32 = capWords b := Nat.mul_div_cancel _ (by decide)

theorem portWord_of_range (h : s.bufIdx.toNat < capWords s.selected) :
    s.portWord = s.hostWord s.selected s.bufIdx.toNat := if_pos h

theorem portWord_of_outside (h : capWords s.selected ≤ s.bufIdx.toNat) : s.portWord = 0 := if_neg (by omega)

/-- A served read of BUF_DATA replies the port's word and advances BUF_IDX (10_state.md R123, R124). -/
theorem step_read_bufData {rest : List BusEvent}
    (hp : s.pending = .access { off := 0x48, bytes := 4, op := .read } :: rest) :
    step s = .next { s with pending := rest, reply := some s.portWord, bufIdx := s.bufIdx + 1 } := by
  have hreg : regAt 0x48 = some .bufData := by decide
  rw [step_of_event hp, serve_read _ (by decide), State.readAt, hreg]
  rfl

/-- A served write of BUF_DATA acts as the port (10_state.md R124). -/
theorem step_write_bufData {v : Word} {rest : List BusEvent}
    (hp : s.pending = .access { off := 0x48, bytes := 4, op := .write v } :: rest) :
    step s = .next (({ s with pending := rest, reply := none } : State).writePort v) := by
  rw [step_of_event hp]
  exact serve_writeReg _ (r := .bufData) (by decide) v

/-- The port changes BUF_IDX and a buffer other than TX (10_state.md R124, R131). -/
theorem writePort_frame (s : State) (v : Word) :
    s.writePort v
      = { s with bufIdx := s.bufIdx + 1
                 pay := (s.writePort v).pay, dat := (s.writePort v).dat, rx := (s.writePort v).rx } := by
  unfold State.writePort
  split
  · rename_i stored
    cases hb : s.selected with
    | tx => exact absurd hb stored.2
    | _ => rfl
  · rfl

theorem writePort_buf_ne (v : Word) {b' : Buffer} (h : b' ≠ s.selected) : (s.writePort v).buf b' = s.buf b' := by
  unfold State.writePort
  split
  · rw [State.advanceIdx_buf, State.setBuf_buf, if_neg h]
  · exact State.advanceIdx_buf s b'

/-- In range, the port stores the 32 bits of the word and no other byte (10_state.md R124). -/
theorem writePort_stores (v : Word) (stored : s.bufIdx.toNat < capWords s.selected ∧ s.selected ≠ .tx) :
    ((s.writePort v).buf s.selected).readBits (32 * s.bufIdx.toNat) 32 = some (bitsOf 32 v.toNat)
    ∧ ∀ a, a < 4 * s.bufIdx.toNat ∨ 4 * s.bufIdx.toNat + 4 ≤ a →
        ((s.writePort v).buf s.selected).byte? a = (s.buf s.selected).byte? a := by
  rw [State.writePort, if_pos stored, State.advanceIdx_buf, State.setBuf_buf_same]
  exact ⟨readBits_storeWord _ _ v, fun a ha => Memory.byte?_storeBytes_of_outside _ _ (wordBytes v) ha⟩

/-- Out of range, or for TX, the port stores nothing (10_state.md R124). -/
theorem writePort_ignores (v : Word) (ignored : capWords s.selected ≤ s.bufIdx.toNat ∨ s.selected = .tx) :
    (s.writePort v).buf s.selected = s.buf s.selected := by
  rw [State.writePort, if_neg (fun ⟨hrange, hbuf⟩ => ignored.elim (by omega) hbuf), State.advanceIdx_buf]

end port

/-- Settles O20: the reply is the port's word, which is the selected buffer's. -/
theorem bufDataReadReturnsTheWord : Obligations.BufDataReadReturnsTheWord := by
  unfold Obligations.BufDataReadReturnsTheWord
  intro s rest hp
  refine ⟨_, step_read_bufData hp, fun b hpay hdat htx hrx => ?_⟩
  obtain rfl := selected_eq_of_table hpay hdat htx hrx
  rw [capBits_div_word]
  refine ⟨fun bits hrange hbits => ?_, portWord_of_outside⟩
  rw [portWord_of_range hrange]
  exact toNat_wordD _ hbits

/-- Settles O21: the port stores the word of the selected buffer, or nothing. -/
theorem bufDataWriteStoresTheWord : Obligations.BufDataWriteStoresTheWord := by
  unfold Obligations.BufDataWriteStoresTheWord
  intro s v rest b hp hpay hdat htx hrx
  obtain rfl := selected_eq_of_table hpay hdat htx hrx
  rw [capBits_div_word]
  exact ⟨_, step_write_bufData hp, writePort_frame _ v, fun b' hb' => writePort_buf_ne v hb',
    writePort_stores (s := { s with pending := rest, reply := none }) v,
    writePort_ignores (s := { s with pending := rest, reply := none }) v⟩

end Sys2Proof.Machine
end

section
/-! Which host accesses reach the FCB and how they are served: the window of host addresses (O22), refusals (O15),
unmapped offsets (O16), and reads through the map (O17). -/
namespace Sys2Proof.Machine

section window

theorem windowOffset?_inside (off : BitVec 8) : windowOffset? (Config.blockBase + off.toNat) = some off := by
  have inside : Config.blockBase ≤ Config.blockBase + off.toNat
      ∧ Config.blockBase + off.toNat < Config.blockBase + 256 := ⟨by omega, by omega⟩
  rw [windowOffset?, if_pos inside, Nat.add_sub_cancel_left, BitVec.ofNat_toNat, BitVec.setWidth_eq]

theorem windowOffset?_outside {addr : Nat} (h : addr < Config.blockBase ∨ Config.blockBase + 256 ≤ addr) :
    windowOffset? addr = none := if_neg (by omega)

end window

section refusals
variable {s : State} {b : Buffer} {k : Bits → Result}

theorem withBits_ne_refused {j n : Nat} (hk : ∀ bits r, k bits ≠ .refused r) (r : Refusal) :
    withBits s b j n k ≠ .refused r := by
  cases h : (s.buf b).readBits j n with
  | none =>
    rw [withBits_of_unwritten h]
    nofun
  | some bits =>
    rw [withBits_of_written h]
    exact hk bits r

theorem withOperand_ne_refused {least : Nat} {c : Bool} (hk : ∀ bits r, k bits ≠ .refused r) (r : Refusal) :
    withOperand s b least c k ≠ .refused r := by
  unfold withOperand
  split_ifs
  · nofun
  · nofun
  · exact withBits_ne_refused hk r

theorem generateDat_ne_refused (sc : Scheme) (s : State) (r : Refusal) : generateDat sc s ≠ .refused r :=
  withOperand_ne_refused (fun _ _ h => by cases h) r

theorem checkDat_ne_refused (sc : Scheme) (s : State) (r : Refusal) : checkDat sc s ≠ .refused r :=
  withOperand_ne_refused (fun _ _ h => by cases h) r

/-- Every command has a meaning: it answers a next state or stops with a fault. -/
theorem exec_ne_refused (i : Instr) (s : State) (r : Refusal) : exec i s ≠ .refused r := by
  cases i with
  | nop | clr | hpack => nofun
  | genCsum | genCrc8 | genCrc10 | genCrc16 | genCrc32 => exact generateDat_ne_refused _ s r
  | chkCsum | chkCrc8 | chkCrc10 | chkCrc16 | chkCrc32 => exact checkDat_ne_refused _ s r
  | hunpack | validate =>
    refine withOperand_ne_refused (fun f _ => ?_) r
    cases unpack f <;> nofun
  | segStart tag =>
    obtain ⟨w, -, hexec⟩ := execSegStart_writes s tag
    rw [exec, hexec s (.refl s _)]
    nofun
  | segNext =>
    rw [exec, execSegNext]
    split_ifs
    · refine withBits_ne_refused (fun d _ => ?_) r
      cases decodeTag s.latch.tag <;> nofun
    · nofun

/-- A permitted write is served: a word that is no command is an error of the FCB, not of the interface
(30_encoding.md R303). -/
theorem writeAt_ne_refused (off : BitVec 8) (v : Word) (s : State) (r : Refusal) : writeAt off v s ≠ .refused r := by
  unfold writeAt
  split
  · nofun
  · unfold runCommand
    split
    · exact exec_ne_refused _ _ r
    · nofun
  · nofun

theorem serve_illFormed (s : State) {a : HostAccess} (h : a.bytes ≠ 4 ∨ a.off.toNat % 4 ≠ 0) :
    serve (.access a) s = .refused .accessWidth ∨ serve (.access a) s = .refused .misalignedAccess := by
  by_cases width : a.bytes = 4
  · right
    have misaligned : a.off.toNat % 4 ≠ 0 := h.resolve_left (not_not_intro width)
    simp [serve, serveAccess, HostAccess.fullWidth, HostAccess.aligned, width, misaligned]
  · left
    simp [serve, serveAccess, HostAccess.fullWidth, width]

theorem serve_wellFormed_ne_refused (s : State) {off : BitVec 8} (aligned : off.toNat % 4 = 0) (op : HostOp)
    (r : Refusal) : serve (.access { off := off, bytes := 4, op := op }) s ≠ .refused r := by
  cases op with
  | read =>
    rw [serve_read s aligned]
    nofun
  | write v =>
    rw [serve_write s aligned]
    exact writeAt_ne_refused off v s r

end refusals

section map

/-- The map leaves free 0x38, 0x3C, 0x5C and everything from 0x80 on (10_state.md R102). -/
theorem regOffset_not_unmapped (r : Reg) :
    ¬ (regOffset r = 0x38 ∨ regOffset r = 0x3C ∨ regOffset r = 0x5C ∨ 0x80 ≤ (regOffset r).toNat) := by
  cases r <;> decide

theorem regAt_unmapped {off : BitVec 8} (h : off = 0x38 ∨ off = 0x3C ∨ off = 0x5C ∨ 0x80 ≤ off.toNat) :
    regAt off = none := by
  cases hreg : regAt off with
  | none => rfl
  | some r =>
    obtain rfl := regAt_eq_some hreg
    exact absurd h (regOffset_not_unmapped r)

/-- A read through the map replies the register and touches BUF_IDX only at BUF_DATA (20_memory.md R207, 10_state.md
R123). -/
theorem readAt_regOffset (s : State) (r : Reg) :
    s.readAt (regOffset r)
      = { s with reply := some (s.readReg r), bufIdx := if r = .bufData then s.bufIdx + 1 else s.bufIdx } := by
  rw [State.readAt, regAt_regOffset]
  cases r <;> rfl

theorem exists_mapRow (r : Reg) : ∃ row ∈ registerMap, row.reg = r := by cases r <;> decide

end map

/-- Settles O22: inside the window the offset is recovered from the address, outside there is none. -/
theorem hostAddressesReachTheWindow : Obligations.HostAddressesReachTheWindow := by
  unfold Obligations.HostAddressesReachTheWindow
  refine ⟨Config.blockBase_mod, fun s off bytes op => ?_, fun s addr bytes op houtside => ?_⟩
  · rw [State.hostIssue, windowOffset?_inside]
  · rw [State.hostIssue, windowOffset?_outside houtside]

/-- Settles O15: the port refuses by width and alignment alone, and nothing behind it refuses. -/
theorem onlyIllFormedAccessesAreRefused : Obligations.OnlyIllFormedAccessesAreRefused := by
  unfold Obligations.OnlyIllFormedAccessesAreRefused
  intro s a rest hp
  rw [step_of_event hp]
  refine ⟨serve_illFormed _, fun width aligned r => ?_⟩
  obtain ⟨off, bytes, op⟩ := a
  obtain rfl : bytes = 4 := width
  exact serve_wellFormed_ne_refused _ aligned op r

/-- Settles O16: the map has no register at these offsets. -/
theorem unmappedOffsetsReadZeroAndIgnoreWrites : Obligations.UnmappedOffsetsReadZeroAndIgnoreWrites := by
  unfold Obligations.UnmappedOffsetsReadZeroAndIgnoreWrites
  intro s off rest aligned hoff
  have unmapped := regAt_unmapped hoff
  refine ⟨fun hp => ?_, fun v hp => ?_⟩
  · rw [step_of_event hp, serve_read _ aligned, State.readAt, unmapped]
  · rw [step_of_event hp, serve_write _ aligned, writeAt, unmapped]

/-- Settles O17: a row's offset is its register's, and a read there replies that register. -/
theorem hostReadsReturnTheRegister : Obligations.HostReadsReturnTheRegister := by
  unfold Obligations.HostReadsReturnTheRegister
  refine ⟨exists_mapRow, fun s row rest hrow hp => ?_⟩
  rw [step_of_event hp, registerMap_off row hrow, serve_read _ (regOffset_aligned row.reg), readAt_regOffset]
  have same : ({ s with pending := rest } : State).readReg row.reg = s.readReg row.reg := by
    cases row.reg <;> rfl
  rw [same]

end Sys2Proof.Machine
end

section
/-! Decoding (30_encoding.md R300 to R305): the words of the commands (O8, O9, O10), the words that are none (O11), and
what a step does with such a word (O13). -/
namespace Sys2Proof

section tags
variable {op : BitVec 4} {t : BitVec 7} {i j : Instr} {f : Scheme → Instr}

theorem untagged_of_ne (h : t ≠ 0) : untagged t i = .error .illegalCommand := if_neg h

theorem untagged_eq_illegal_iff : untagged t i = .error .illegalCommand ↔ t.toNat ≠ 0 := by
  by_cases h : t = 0
  · subst h
    simp [untagged]
  · have nonzero : t.toNat ≠ 0 := fun e => h (BitVec.eq_of_toNat_eq e)
    simp [untagged_of_ne h, nonzero]

theorem untagged_ne_unsupported : untagged t i ≠ .error .unsupportedScheme := by
  unfold untagged
  split <;> nofun

theorem schemed_tag (sc : Scheme) (f : Scheme → Instr) : schemed sc.tag f = .ok (f sc) := by
  rw [schemed, decodeTag_tag]

theorem schemed_of_unknown (h : decodeTag t = .unknown t) : schemed t f = .error .unsupportedScheme := by
  rw [schemed, h]

theorem schemed_ne_illegal : schemed t f ≠ .error .illegalCommand := by
  unfold schemed
  split <;> nofun

theorem Scheme.tag_le (sc : Scheme) : sc.tag.toNat ≤ 4 := by cases sc <;> decide

theorem schemed_eq_unsupported_iff : schemed t f = .error .unsupportedScheme ↔ 4 < t.toNat := by
  obtain ⟨sc, rfl, -⟩ | ⟨large, unknown⟩ := decodeTag_cases t
  · simp [schemed_tag, sc.tag_le]
  · simp [schemed_of_unknown unknown, large]

/-- A command without a TAG has one word. -/
theorem encode_of_untagged (word : encode i = cmdWord op 0) (h : untagged t i = .ok j) : encode j = cmdWord op t := by
  by_cases ht : t = 0
  · subst ht
    obtain rfl := Except.ok.inj h
    exact word
  · cases (untagged_of_ne ht).symm.trans h

/-- A command whose TAG names its scheme has one word for each scheme. -/
theorem encode_of_schemed (word : ∀ sc, encode (f sc) = cmdWord op sc.tag) (h : schemed t f = .ok j) :
    encode j = cmdWord op t := by
  obtain ⟨sc, rfl, -⟩ | ⟨-, unknown⟩ := decodeTag_cases t
  · obtain rfl := Except.ok.inj ((schemed_tag sc f).symm.trans h)
    exact word sc
  · cases (schemed_of_unknown unknown).symm.trans h

end tags

theorem cmdRsv1_toNat (w : Word) : (cmdRsv1 w).toNat = w.toNat / 4096 := by
  rw [cmdRsv1, BitVec.extractLsb'_toNat, Nat.shiftRight_eq_div_pow]
  omega

theorem cmdOp_toNat (w : Word) : (cmdOp w).toNat = w.toNat / 256 % 16 := by
  rw [cmdOp, BitVec.extractLsb'_toNat, Nat.shiftRight_eq_div_pow]

theorem cmdRsv0_toNat (w : Word) : (cmdRsv0 w).toNat = w.toNat / 128 % 2 := by
  rw [cmdRsv0, BitVec.extractLsb'_toNat, Nat.shiftRight_eq_div_pow]

theorem cmdTag_toNat (w : Word) : (cmdTag w).toNat = w.toNat % 128 := by
  rw [cmdTag, BitVec.extractLsb'_toNat, Nat.shiftRight_zero]

/-- A word is a number below 2^12 put together from OP and TAG (30_encoding.md R300). -/
theorem cmdWord_toNat (op : BitVec 4) (t : BitVec 7) : (cmdWord op t).toNat = 256 * op.toNat + t.toNat := by
  have rsv1 := cmdRsv1_toNat (cmdWord op t)
  have opField := cmdOp_toNat (cmdWord op t)
  have rsv0 := cmdRsv0_toNat (cmdWord op t)
  have tag := cmdTag_toNat (cmdWord op t)
  rw [cmdRsv1_cmdWord, BitVec.ofNat_eq_ofNat, BitVec.toNat_zero] at rsv1
  rw [cmdOp_cmdWord] at opField
  rw [cmdRsv0_cmdWord, BitVec.ofNat_eq_ofNat, BitVec.toNat_zero] at rsv0
  rw [cmdTag_cmdWord] at tag
  omega

section decoding
variable {w : Word} {op : BitVec 4} {t : BitVec 7} {i : Instr}

theorem decode_cmdWord (op : BitVec 4) (t : BitVec 7) : decode (cmdWord op t) = decodeOp op t := by
  rw [decode_of_clear (cmdRsv1_cmdWord op t) (cmdRsv0_cmdWord op t), cmdOp_cmdWord, cmdTag_cmdWord]

theorem decode_encode (i : Instr) : decode (encode i) = .ok i := by
  cases i <;> exact decode_cmdWord _ _

theorem encode_genInstr (sc : Scheme) : encode (genInstr sc) = cmdWord 2 sc.tag := by cases sc <;> rfl

theorem encode_chkInstr (sc : Scheme) : encode (chkInstr sc) = cmdWord 3 sc.tag := by cases sc <;> rfl

/-- Each OP gives its commands their words (30_encoding.md R304). -/
theorem encode_of_decodeOp (h : decodeOp op t = .ok i) : encode i = cmdWord op t := by
  unfold decodeOp at h
  split at h
  next hop =>
    obtain rfl : op = 0 := BitVec.eq_of_toNat_eq hop
    exact encode_of_untagged rfl h
  next hop =>
    obtain rfl : op = 1 := BitVec.eq_of_toNat_eq hop
    exact encode_of_untagged rfl h
  next hop =>
    obtain rfl : op = 2 := BitVec.eq_of_toNat_eq hop
    exact encode_of_schemed encode_genInstr h
  next hop =>
    obtain rfl : op = 3 := BitVec.eq_of_toNat_eq hop
    exact encode_of_schemed encode_chkInstr h
  next hop =>
    obtain rfl : op = 4 := BitVec.eq_of_toNat_eq hop
    obtain rfl := Except.ok.inj h
    rfl
  next hop =>
    obtain rfl : op = 5 := BitVec.eq_of_toNat_eq hop
    exact encode_of_untagged rfl h
  next hop =>
    obtain rfl : op = 6 := BitVec.eq_of_toNat_eq hop
    obtain rfl := Except.ok.inj h
    rfl
  next hop =>
    obtain rfl : op = 7 := BitVec.eq_of_toNat_eq hop
    exact encode_of_untagged rfl h
  next hop =>
    obtain rfl : op = 8 := BitVec.eq_of_toNat_eq hop
    exact encode_of_untagged rfl h
  next => cases h

theorem decode_of_unreserved (h : ¬ (cmdRsv1 w ≠ 0 ∨ cmdRsv0 w ≠ 0)) :
    decode w = decodeOp (cmdOp w) (cmdTag w) := if_neg h

/-- Decoding answers a command for the command's word alone. -/
theorem decode_eq_ok_iff : decode w = .ok i ↔ w = encode i := by
  constructor
  · intro h
    by_cases reserved : cmdRsv1 w ≠ 0 ∨ cmdRsv0 w ≠ 0
    · cases (decode_of_reserved reserved).symm.trans h
    · rw [decode_of_unreserved reserved] at h
      obtain ⟨h1, h0⟩ := not_or.1 reserved
      rw [encode_of_decodeOp h, cmdWord_fields (not_not.1 h1) (not_not.1 h0)]
  · rintro rfl
    exact decode_encode i

theorem decodeOp_eq_illegal_iff : decodeOp op t = .error .illegalCommand ↔
    9 ≤ op.toNat ∨ (op.toNat ∈ [0, 1, 5, 7, 8] ∧ t.toNat ≠ 0) := by
  unfold decodeOp
  split
  case h_10 =>
    have large : 9 ≤ op.toNat := by
      simp only [imp_false] at *
      omega
    simp [large]
  all_goals simp [*, untagged_eq_illegal_iff, schemed_ne_illegal]

theorem decodeOp_eq_unsupported_iff : decodeOp op t = .error .unsupportedScheme ↔
    (op.toNat = 2 ∨ op.toNat = 3) ∧ 4 < t.toNat := by
  unfold decodeOp
  split
  case h_10 =>
    have large : 9 ≤ op.toNat := by
      simp only [imp_false] at *
      omega
    simp only [Except.error.injEq, reduceCtorEq, false_iff]
    omega
  all_goals simp [*, untagged_ne_unsupported, schemed_eq_unsupported_iff]

/-- A reserved field is nonzero in the words from 2^12 on and in those with bit 7 set. -/
theorem reserved_iff (w : Word) : cmdRsv1 w ≠ 0 ∨ cmdRsv0 w ≠ 0 ↔ 4096 ≤ w.toNat ∨ w.toNat / 128 % 2 = 1 := by
  rw [ne_eq, ne_eq, ← BitVec.toNat_inj, ← BitVec.toNat_inj, cmdRsv1_toNat, cmdRsv0_toNat]
  simp only [BitVec.ofNat_eq_ofNat, BitVec.toNat_zero]
  omega

theorem decode_eq_illegal_iff (w : Word) : decode w = .error .illegalCommand ↔
    4096 ≤ w.toNat ∨ w.toNat / 128 % 2 = 1 ∨ 9 ≤ w.toNat / 256 % 16
      ∨ (w.toNat / 256 % 16 ∈ [0, 1, 5, 7, 8] ∧ w.toNat % 128 ≠ 0) := by
  rw [← or_assoc, ← reserved_iff, ← cmdOp_toNat, ← cmdTag_toNat, ← decodeOp_eq_illegal_iff]
  by_cases reserved : cmdRsv1 w ≠ 0 ∨ cmdRsv0 w ≠ 0
  · simp only [decode_of_reserved reserved, reserved, true_or]
  · simp only [decode_of_unreserved reserved, reserved, false_or]

/-- Only GEN and CHK words with no reserved bit and a TAG of 5 or more name an unsupported scheme. -/
theorem decode_eq_unsupported_iff (w : Word) : decode w = .error .unsupportedScheme ↔
    w.toNat < 4096 ∧ w.toNat / 128 % 2 = 0 ∧ (w.toNat / 256 % 16 = 2 ∨ w.toNat / 256 % 16 = 3)
      ∧ 4 < w.toNat % 128 := by
  by_cases reserved : cmdRsv1 w ≠ 0 ∨ cmdRsv0 w ≠ 0
  · have bits := (reserved_iff w).1 reserved
    simp only [decode_of_reserved reserved, Except.error.injEq, reduceCtorEq, false_iff]
    omega
  · have bits := mt (reserved_iff w).2 reserved
    rw [decode_of_unreserved reserved, decodeOp_eq_unsupported_iff, cmdOp_toNat, cmdTag_toNat]
    omega

end decoding

/-- A TAG is added to the word of its OP. -/
theorem cmdWord_tag (op : BitVec 4) (t : BitVec 7) : cmdWord op t = cmdWord op 0 + t.setWidth 32 := by
  apply BitVec.eq_of_toNat_eq
  rw [BitVec.toNat_add, cmdWord_toNat, cmdWord_toNat, BitVec.toNat_setWidth, BitVec.ofNat_eq_ofNat, BitVec.toNat_zero]
  omega

theorem encode_hpack (t : BitVec 7) : encode (.hpack t) = 0x00000400 + t.setWidth 32 := cmdWord_tag 4 t

theorem encode_segStart (t : BitVec 7) : encode (.segStart t) = 0x00000600 + t.setWidth 32 := cmdWord_tag 6 t

/-- Settles O8: a word built of fields is decoded by them. -/
theorem decodeEncodeRoundTrip : Obligations.DecodeEncodeRoundTrip := by
  unfold Obligations.DecodeEncodeRoundTrip
  intro i _
  exact decode_encode i

/-- Settles O9: the table's words are those the encoder gives, and decoding answers a command for no other word. -/
theorem commandWordsAreTheTable : Obligations.CommandWordsAreTheTable := by
  unfold Obligations.CommandWordsAreTheTable
  intro w
  exact ⟨decode_eq_ok_iff, decode_eq_ok_iff, decode_eq_ok_iff, decode_eq_ok_iff, decode_eq_ok_iff, decode_eq_ok_iff,
    decode_eq_ok_iff, decode_eq_ok_iff, decode_eq_ok_iff, decode_eq_ok_iff, decode_eq_ok_iff, decode_eq_ok_iff,
    fun t => encode_hpack t ▸ decode_eq_ok_iff, decode_eq_ok_iff, fun t => encode_segStart t ▸ decode_eq_ok_iff,
    decode_eq_ok_iff, decode_eq_ok_iff⟩

/-- Settles O10: these are the encoder's words. -/
theorem writtenOutWordsDecode : Obligations.WrittenOutWordsDecode := by
  unfold Obligations.WrittenOutWordsDecode
  exact ⟨decode_encode .nop, decode_encode .clr, decode_encode .genCrc10, decode_encode .chkCsum,
    decode_encode (.hpack 0b1010101), decode_encode (.segStart 4), decode_encode .validate⟩

/-- Settles O11: by the fields of a word; the unsupported schemes are two ranges. -/
theorem decodeErrorsAreThoseListed : Obligations.DecodeErrorsAreThoseListed := by
  unfold Obligations.DecodeErrorsAreThoseListed
  intro w
  refine ⟨decode_eq_illegal_iff w, (decode_eq_unsupported_iff w).trans ?_⟩
  omega

end Sys2Proof

namespace Sys2Proof.Machine

theorem runCommand_of_error {w : Word} {e : DecodeError} (h : decode w = .error e) (s : State) :
    runCommand w s = .next (({ s with cmd := w } : State).raiseError (isCheckWord w) (decodeErrorCode e)) := by
  rw [runCommand, h]

theorem isCheckWord_iff (w : Word) :
    isCheckWord w = true ↔ w.toNat / 256 % 16 = 3 ∨ w.toNat / 256 % 16 = 8 := by
  rw [isCheckWord, Bool.or_eq_true, beq_iff_eq, beq_iff_eq, ← BitVec.toNat_inj, ← BitVec.toNat_inj, cmdOp_toNat]
  rfl

/-- A rejected word clears RESULT only as a CHK with an unknown tag: a VALIDATE word is rejected as illegal
(60_exceptions.md R703). -/
theorem raise_rejected {w : Word} {e : DecodeError} (h : decode w = .error e) (f : Status) :
    f.raise (isCheckWord w) (decodeErrorCode e)
      = { f with
          err := if e = .illegalCommand then .illegalCommand else .unsupportedScheme
          sticky := true
          result := if e = .unsupportedScheme ∧ w.toNat / 256 % 16 = 3 then .none else f.result } := by
  cases e with
  | illegalCommand => simp [Status.raise, decodeErrorCode]
  | unsupportedScheme =>
    obtain ⟨-, -, op, -⟩ := (decode_eq_unsupported_iff w).1 h
    have check : isCheckWord w = true ↔ w.toNat / 256 % 16 = 3 := (isCheckWord_iff w).trans (by omega)
    simp [Status.raise, decodeErrorCode, check]

/-- Settles O13: the step serves the CMD write, and the word is rejected. -/
theorem rejectedWordsChangeOnlyStatus : Obligations.RejectedWordsChangeOnlyStatus := by
  unfold Obligations.RejectedWordsChangeOnlyStatus
  intro s w e rest hp he
  rw [step_of_event hp, serve_command, runCommand_of_error he, State.raiseError, raise_rejected he]
  rfl

end Sys2Proof.Machine
end

section
/-! What the commands share (40_control.md R400 to R421): NOP and CLR (O24, O25), the frame of an error (O36), the
accesses still to come (O23), and the faults and the completion that the written bits decide (O40, O41). -/
namespace Sys2Proof

theorem Instr.isCheck_iff (i : Instr) :
    i.isCheck = true ↔ i ∈ [.chkCsum, .chkCrc8, .chkCrc10, .chkCrc16, .chkCrc32, .validate] := by
  cases i <;> simp [Instr.isCheck]

end Sys2Proof

namespace Sys2Proof.Machine

section status
variable {i : Instr} {s t : State} {w : Writes}

/-- An error writes nothing beside its flags (40_control.md R403). -/
theorem WritesOf.eq_error (h : WritesOf s i w) (err : w.err ≠ .none) : w = .error i.isCheck w.err := by
  cases h with
  | error => rfl
  | _ => exact absurd rfl err

/-- A check that ran has an outcome (10_state.md R113). -/
theorem CheckResult.ofCheck_ne_none (ok : Bool) : CheckResult.ofCheck ok ≠ .none := by cases ok <;> decide

/-- A success other than CLR's leaves RESULT or writes the outcome of a check. -/
theorem WritesOf.result_of_success (h : WritesOf s i w) (err : w.err = .none) (hi : i ≠ .clr) :
    w.result ≠ some .none := by
  cases h with
  | error _ _ isError => exact absurd err isError
  | clr => exact absurd rfl hi
  | chk | validated => exact fun h => CheckResult.ofCheck_ne_none _ (Option.some.inj h)
  | _ => nofun

/-- RESULT is left, or holds the outcome of a check, after a success other than CLR's. -/
theorem exec_result_ne_none (h : exec i s = .next t) (hi : i ≠ .clr) (err : t.status.err = .none)
    (result : s.status.result ≠ .none) : t.status.result ≠ .none := by
  obtain ⟨w, hw, rfl⟩ := exec_next h
  have written := hw.result_of_success err hi
  change w.result.getD s.status.result ≠ .none
  cases hr : w.result with
  | none => exact result
  | some r => exact fun cleared => written (hr.trans (congrArg some cleared))

/-- No command has the accesses still to come among its inputs (40_control.md R401). -/
theorem State.SameInputs.of_pending (s : State) (i : Instr) (later : List BusEvent) :
    s.SameInputs { s with pending := later } i := by
  cases i with
  | nop | clr => trivial
  | hpack tag => exact ⟨rfl, rfl, rfl, rfl, rfl⟩
  | segStart tag => exact ⟨rfl, rfl, rfl, rfl, rfl, rfl⟩
  | segNext => exact ⟨rfl, rfl, rfl, rfl, fun _ => rfl⟩
  | _ => exact ⟨rfl, fun _ => rfl⟩

end status

/-- Settles O24: a word below 128 has OP 0, which takes no TAG. -/
theorem nopClearsOnlyErr : Obligations.NopClearsOnlyErr := by
  unfold Obligations.NopClearsOnlyErr
  refine ⟨decode_encode .nop, fun w positive small => ?_, fun _ => rfl⟩
  have op : w.toNat / 256 % 16 = 0 := by omega
  have tag : w.toNat % 128 ≠ 0 := by omega
  exact (decode_eq_illegal_iff w).2 (.inr (.inr (.inr ⟨by simp [op], tag⟩)))

/-- Settles O25: STICKY by the rule of R112, RESULT by what a success can write. -/
theorem clrClearsErrStickyAndResult : Obligations.ClrClearsErrStickyAndResult := by
  unfold Obligations.ClrClearsErrStickyAndResult
  refine ⟨decode_encode .clr, fun _ => rfl, fun i s t hi h => ⟨fun sticky => ?_, exec_result_ne_none h hi⟩⟩
  obtain ⟨sets, -, keeps⟩ := stickyRecordsErrorsUntilClr i s t h
  by_cases err : t.status.err = .none
  · exact (keeps hi err).trans sticky
  · exact sets err

/-- Settles O36: the write of an error, read off field by field. -/
theorem errorsChangeOnlyStatus : Obligations.ErrorsChangeOnlyStatus := by
  unfold Obligations.ErrorsChangeOnlyStatus
  intro i s t h err
  obtain ⟨w, hw, rfl⟩ := exec_next h
  have result : w.result.getD s.status.result = if i.isCheck = true then .none else s.status.result := by
    rw [hw.eq_error err]
    cases hc : i.isCheck <;> rfl
  simp only [← Instr.isCheck_iff, ← result]
  rw [hw.eq_error err]
  rfl

/-- Settles O23: the same inputs give the same write, and no write reaches the pending events. -/
theorem commandsIgnoreAccessesToCome : Obligations.CommandsIgnoreAccessesToCome := by
  unfold Obligations.CommandsIgnoreAccessesToCome
  intro i s t later h
  obtain ⟨w, -, rfl, same⟩ := exec_writes h
  exact same _ (.of_pending s i later)

theorem Memory.readBits_of_unwritten {m : Memory} {j n k : Nat} (low : j ≤ k) (high : k < j + n)
    (unwritten : m.bit? k = none) : m.readBits j n = none := by
  cases read : m.readBits j n with
  | none => rfl
  | some bits =>
    obtain ⟨length, written⟩ := Memory.readBits_eq_some_iff.1 read
    have bit : bits[k - j]? = none := by
      rw [← written (k - j) (by omega), Nat.add_sub_cancel' low, unwritten]
    have outside := List.getElem?_eq_none_iff.1 bit
    omega

section operands
variable {s : State} {b : Buffer} {least : Nat} {c : Bool} {k : Bits → Result}

theorem withOperand_of_unwritten (fits : (s.len b).toNat ≤ capBits b) (long : least ≤ (s.len b).toNat)
    (unwritten : ∃ j < (s.len b).toNat, (s.buf b).bit? j = none) :
    withOperand s b least c k = .fault (.unwrittenBits b) := by
  obtain ⟨j, below, unwritten⟩ := unwritten
  rw [withOperand, if_neg (by omega), if_neg (by omega)]
  exact withBits_of_unwritten (Memory.readBits_of_unwritten j.zero_le (by omega) unwritten)

theorem withBits_completes {j n : Nat} (written : ((s.buf b).readBits j n).isSome = true)
    (hk : ∀ bits, ∃ t, k bits = .next t) : ∃ t, withBits s b j n k = .next t := by
  obtain ⟨bits, read⟩ := Option.isSome_iff_exists.1 written
  rw [withBits_of_written read]
  exact hk bits

/-- An operand of a wrong length is an error, which is a next state too. -/
theorem withOperand_completes (written : ((s.buf b).readBits 0 (s.len b).toNat).isSome = true)
    (hk : ∀ bits, ∃ t, k bits = .next t) : ∃ t, withOperand s b least c k = .next t := by
  unfold withOperand
  split_ifs
  · exact ⟨_, rfl⟩
  · exact ⟨_, rfl⟩
  · exact withBits_completes written hk

end operands

theorem exec_genInstr (s : State) (sc : Scheme) : exec (genInstr sc) s = generateDat sc s := by cases sc <;> rfl

theorem exec_chkInstr (s : State) (sc : Scheme) : exec (chkInstr sc) s = checkDat sc s := by cases sc <;> rfl

/-- An active SEG.NEXT under the invariant has a known tag latched, so its window is all it needs. -/
theorem execSegNext_completes {s : State} (hinv : s.Inv)
    (written : (s.pay.readBits s.segPos.toNat s.windowLen).isSome = true) : ∃ t, execSegNext s = .next t := by
  unfold execSegNext
  split_ifs with active
  · obtain ⟨sc, known, -⟩ := Latches.consistent_iff.1 (hinv.latch_consistent active)
    refine withBits_completes written fun d => ⟨s.frameEmitted sc d, ?_⟩
    rw [known]
  · exact ⟨_, rfl⟩

/-- Settles O40: the operand is read after its length checks, and a read that meets an unwritten bit faults. -/
theorem unwrittenOperandsFault : Obligations.UnwrittenOperandsFault := by
  unfold Obligations.UnwrittenOperandsFault
  refine ⟨fun i least s hmem long fits unwritten => ?_, fun i s hi long fits unwritten => ?_,
    fun s active ⟨j, low, high, unwritten⟩ => ?_⟩
  · have gen (sc : Scheme) : exec (genInstr sc) s = .fault (.unwrittenBits .dat) :=
      (exec_genInstr s sc).trans (withOperand_of_unwritten fits (Nat.zero_le _) unwritten)
    have chk (sc : Scheme) (width : sc.codeWidth = least) : exec (chkInstr sc) s = .fault (.unwrittenBits .dat) :=
      (exec_chkInstr s sc).trans (withOperand_of_unwritten fits (width.trans_le long) unwritten)
    simp only [List.mem_cons, Prod.mk.injEq, List.not_mem_nil, or_false] at hmem
    obtain ⟨rfl, -⟩ | ⟨rfl, -⟩ | ⟨rfl, -⟩ | ⟨rfl, -⟩ | ⟨rfl, -⟩ | ⟨rfl, rfl⟩ | ⟨rfl, rfl⟩ | ⟨rfl, rfl⟩ | ⟨rfl, rfl⟩
      | ⟨rfl, rfl⟩ := hmem
    · exact gen .checksum
    · exact gen .crc8
    · exact gen .crc10
    · exact gen .crc16
    · exact gen .crc32
    · exact chk .checksum codeWidth_checksum
    · exact chk .crc8 codeWidth_crc8
    · exact chk .crc10 codeWidth_crc10
    · exact chk .crc16 codeWidth_crc16
    · exact chk .crc32 codeWidth_crc32
  · obtain rfl | rfl := hi <;> exact withOperand_of_unwritten fits long unwritten
  · rw [exec, execSegNext, if_pos active]
    exact withBits_of_unwritten (Memory.readBits_of_unwritten low high unwritten)

/-- Settles O41: a command that reads no buffer completes always, any other once its operand is read. -/
theorem commandsCompleteOnWrittenOperands : Obligations.CommandsCompleteOnWrittenOperands := by
  unfold Obligations.CommandsCompleteOnWrittenOperands
  intro i s hinv written
  cases i with
  | nop | clr | hpack => exact ⟨_, rfl⟩
  | genCsum | genCrc8 | genCrc10 | genCrc16 | genCrc32 | chkCsum | chkCrc8 | chkCrc10 | chkCrc16 | chkCrc32 =>
    exact withOperand_completes written fun _ => ⟨_, rfl⟩
  | hunpack | validate =>
    refine withOperand_completes written fun f => ?_
    cases unpack f <;> exact ⟨_, rfl⟩
  | segStart tag =>
    obtain ⟨w, -, hexec⟩ := execSegStart_writes s tag
    exact ⟨_, hexec s (.refl s _)⟩
  | segNext => exact execSegNext_completes hinv written

end Sys2Proof.Machine
end

section
/-! The CRC codes (41_crc.md R450 to R483): the division clears what it divides (O45), is linear (O48), leaves the
remainder of polynomials over GF(2) (O46, O47) and is what a bit-serial register computes (O49); the commands write the
code and the remainder of DAT (O27, O29). -/
namespace Sys2Proof

theorem zeros_succ (k : Nat) : zeros (k + 1) = false :: zeros k := List.replicate_succ

/-! ## One position of the division -/

/-- `g` added into `w` where the bit `x` is 1: what one position of the division does to the bits after it. -/
def xorIf (x : Bool) (w g : Bits) : Bits := if x then xorInto w g else w

@[simp] theorem xorIf_nil_left (x : Bool) (g : Bits) : xorIf x [] g = [] := by cases x <;> cases g <;> rfl

@[simp] theorem xorIf_nil_right (x : Bool) (w : Bits) : xorIf x w [] = w := by cases x <;> cases w <;> rfl

@[simp] theorem xorIf_cons (x a b : Bool) (w g : Bits) :
    xorIf x (a :: w) (b :: g) = (a ^^ (x && b)) :: xorIf x w g := by
  cases x <;> simp [xorIf, xorInto]

@[simp] theorem length_xorIf (x : Bool) (w g : Bits) : (xorIf x w g).length = w.length := by
  cases x <;> simp [xorIf]

/-- The division divides out the first bit, then goes on with what that leaves of the others (41_crc.md R453). -/
theorem crcDiv_succ (L : Nat) (x b : Bool) (w g : Bits) :
    crcDiv (L + 1) (x :: w) (b :: g) = (x ^^ (x && b)) :: crcDiv L (xorIf x w g) (b :: g) := by
  cases x <;> simp [crcDiv, xorInto, xorIf]

/-- A polynomial of no bits divides nothing out. -/
theorem crcDiv_nil_right (L : Nat) (w : Bits) : crcDiv L w [] = w := by
  induction L generalizing w with
  | zero => rfl
  | succ L ih => cases w <;> simp [crcDiv, xorInto, ih]

theorem exists_of_leading_one {g : Bits} (h : g.head? = some true) : ∃ low, g = true :: low := by
  obtain ⟨low, rfl⟩ := List.head?_eq_some_iff.1 h
  exact ⟨low, rfl⟩

theorem crcDiv_take (L : Nat) (w low : Bits) (h : L ≤ w.length) :
    (crcDiv L w (true :: low)).take L = zeros L := by
  induction L generalizing w with
  | zero => rfl
  | succ L ih =>
    match w, h with
    | x :: w, h =>
      have rest : L ≤ (xorIf x w low).length := by simpa using h
      rw [crcDiv_succ, List.take_succ_cons, ih _ rest, zeros_succ, Bool.and_true, Bool.xor_self]

/-- Settles O45: by induction over the divided positions, each left 0 by the leading 1. -/
theorem divisionClearsTheDividedPositions : Obligations.DivisionClearsTheDividedPositions := by
  unfold Obligations.DivisionClearsTheDividedPositions
  intro L w g lead length
  obtain ⟨low, rfl⟩ := exists_of_leading_one lead
  exact ⟨length_crcDiv L w _, crcDiv_take L w low (by omega)⟩

/-! ## Linearity -/

theorem xorBits_cons (a b : Bool) (s t : Bits) : xorBits (a :: s) (b :: t) = (a ^^ b) :: xorBits s t := rfl

theorem xorBits_self (s : Bits) : xorBits s s = zeros s.length := by
  simp [xorBits, zeros, List.map_const']

theorem xorIf_xorBits (x y : Bool) {a b : Bits} (g : Bits) (h : a.length = b.length) :
    xorIf (x ^^ y) (xorBits a b) g = xorBits (xorIf x a g) (xorIf y b g) := by
  induction g generalizing a b with
  | nil => simp
  | cons c g ih =>
    match a, b, h with
    | [], [], _ => simp [xorBits]
    | p :: a, q :: b, h =>
      have head : ((p ^^ q) ^^ ((x ^^ y) && c)) = ((p ^^ (x && c)) ^^ (q ^^ (y && c))) := by
        cases c <;> simp [Bool.xor_left_comm]
      simp only [xorBits_cons, xorIf_cons, head, ih (Nat.succ.inj h)]

theorem crcDiv_xorBits (L : Nat) {a b : Bits} (g : Bits) (h : a.length = b.length) :
    crcDiv L (xorBits a b) g = xorBits (crcDiv L a g) (crcDiv L b g) := by
  cases g with
  | nil => simp only [crcDiv_nil_right]
  | cons c g =>
    induction L generalizing a b with
    | zero => rfl
    | succ L ih =>
      match a, b, h with
      | [], [], _ => rfl
      | x :: a, y :: b, h =>
        have rest : (xorIf x a g).length = (xorIf y b g).length := by simpa using h
        have head : ((x ^^ y) ^^ ((x ^^ y) && c)) = ((x ^^ (x && c)) ^^ (y ^^ (y && c))) := by
          cases c <;> simp
        simp only [xorBits_cons, crcDiv_succ, head, xorIf_xorBits x y g (Nat.succ.inj h), ih rest]

theorem crcGen_xorBits {a b : Bits} (g : Bits) (h : a.length = b.length) :
    crcGen (xorBits a b) g = xorBits (crcGen a g) (crcGen b g) := by
  have padded : xorBits a b ++ zeros (g.length - 1)
      = xorBits (a ++ zeros (g.length - 1)) (b ++ zeros (g.length - 1)) := by
    rw [xorBits, xorBits, List.zipWith_append h]
    simp [zeros]
  rw [crcGen, padded, crcDiv_xorBits _ g (by simp [h]), length_xorBits, crcGen, crcGen, ← h, min_self]
  exact List.drop_zipWith

/-- Settles O48: the code of zeros is that of a string added to itself. -/
theorem crcIsLinear : Obligations.CrcIsLinear := by
  unfold Obligations.CrcIsLinear
  refine ⟨fun a b g h => crcGen_xorBits g h, fun k g => ?_⟩
  calc crcGen (zeros k) g
    _ = crcGen (xorBits (zeros k) (zeros k)) g := by rw [xorBits_self, length_zeros]
    _ = xorBits (crcGen (zeros k) g) (crcGen (zeros k) g) := crcGen_xorBits g rfl
    _ = zeros (g.length - 1) := by rw [xorBits_self, length_crcGen]

/-! ## Polynomials over GF(2) -/

section polynomials
open Polynomial

@[simp] theorem gf2Poly_nil : gf2Poly [] = 0 := rfl

theorem foldl_gf2Poly (s : Bits) (p : (ZMod 2)[X]) :
    s.foldl (fun p b => p * X + C (if b then 1 else 0)) p = p * X ^ s.length + gf2Poly s := by
  induction s generalizing p with
  | nil => simp
  | cons b s ih =>
    rw [gf2Poly, List.foldl_cons, List.foldl_cons, ih, ih (0 * X + _), List.length_cons]
    ring

theorem gf2Poly_cons (b : Bool) (s : Bits) :
    gf2Poly (b :: s) = C (if b then 1 else 0) * X ^ s.length + gf2Poly s := by
  rw [gf2Poly, List.foldl_cons, foldl_gf2Poly, zero_mul, zero_add]

theorem gf2Poly_append (s t : Bits) : gf2Poly (s ++ t) = gf2Poly s * X ^ t.length + gf2Poly t := by
  induction s with
  | nil => simp
  | cons b s ih =>
    rw [List.cons_append, gf2Poly_cons, gf2Poly_cons, ih, List.length_append]
    ring

@[simp] theorem gf2Poly_zeros (k : Nat) : gf2Poly (zeros k) = 0 := by
  induction k with
  | zero => rfl
  | succ k ih => simp [zeros_succ, gf2Poly_cons, ih]

theorem degree_gf2Poly_lt (s : Bits) : (gf2Poly s).degree < s.length := by
  induction s with
  | nil => simp
  | cons b s ih =>
    rw [gf2Poly_cons, List.length_cons]
    refine (degree_add_le _ _).trans_lt (max_lt ?_ (ih.trans (by exact_mod_cast s.length.lt_succ_self)))
    exact (degree_C_mul_X_pow_le _ _).trans_lt (by exact_mod_cast s.length.lt_succ_self)

theorem gf2Poly_leading_one (low : Bits) : gf2Poly (true :: low) = X ^ low.length + gf2Poly low := by
  simp [gf2Poly_cons]

theorem monic_gf2Poly (low : Bits) : (gf2Poly (true :: low)).Monic := by
  rw [gf2Poly_leading_one]
  exact monic_X_pow_add (degree_gf2Poly_lt low)

theorem degree_gf2Poly (low : Bits) : (gf2Poly (true :: low)).degree = low.length := by
  have lower : (gf2Poly low).degree < (X ^ low.length : (ZMod 2)[X]).degree := by
    rw [degree_X_pow]
    exact degree_gf2Poly_lt low
  rw [gf2Poly_leading_one, degree_add_eq_left_of_degree_lt lower, degree_X_pow]

theorem gf2Poly_eq_zero_iff (s : Bits) : gf2Poly s = 0 ↔ s = zeros s.length := by
  constructor
  · intro zero
    induction s with
    | nil => rfl
    | cons b s ih =>
      cases b with
      | true => exact absurd zero (monic_gf2Poly s).ne_zero
      | false =>
        rw [List.length_cons, zeros_succ]
        exact congrArg _ (ih (by simpa [gf2Poly_cons] using zero))
  · intro h
    rw [h, gf2Poly_zeros]

theorem coeff_xor_and : ∀ a x b : Bool, (if a ^^ (x && b) then 1 else 0 : ZMod 2)
    = (if a then 1 else 0) + (if x then 1 else 0) * (if b then 1 else 0) := by
  decide

theorem gf2Poly_xorIf (x : Bool) {w g : Bits} {L : Nat} (h : w.length = L + g.length) :
    gf2Poly (xorIf x w g) = gf2Poly w + C (if x then 1 else 0) * gf2Poly g * X ^ L := by
  induction g generalizing w with
  | nil => simp
  | cons b g ih =>
    match w, h with
    | a :: w, h =>
      have rest : w.length = L + g.length := Nat.succ.inj h
      have bit : (C (if a ^^ (x && b) then 1 else 0) : (ZMod 2)[X])
          = C (if a then 1 else 0) + C (if x then 1 else 0) * C (if b then 1 else 0) := by
        rw [← C_mul, ← C_add, coeff_xor_and]
      rw [xorIf_cons, gf2Poly_cons, gf2Poly_cons, gf2Poly_cons, ih rest, length_xorIf, rest, bit]
      ring

/-- One position of the division leaves the residue: it adds a multiple of the polynomial (41_crc.md R458). -/
theorem gf2Poly_xorIf_modByMonic (x : Bool) {w low : Bits} {L : Nat} (h : w.length = L + low.length) :
    gf2Poly (xorIf x w low) %ₘ gf2Poly (true :: low) = gf2Poly (x :: w) %ₘ gf2Poly (true :: low) := by
  refine modByMonic_eq_of_dvd_sub (monic_gf2Poly low) ⟨C (if x then 1 else 0) * X ^ L, ?_⟩
  rw [CharTwo.sub_eq_add, gf2Poly_xorIf x h, gf2Poly_cons, gf2Poly_leading_one, h]
  linear_combination CharTwo.add_self_eq_zero (gf2Poly w)

/-- What the division leaves after the divided positions is the remainder (41_crc.md R458). -/
theorem gf2Poly_crcDiv_drop {L : Nat} {w low : Bits} (h : w.length = L + low.length) :
    gf2Poly ((crcDiv L w (true :: low)).drop L) = gf2Poly w %ₘ gf2Poly (true :: low) := by
  induction L generalizing w with
  | zero =>
    refine ((modByMonic_eq_self_iff (monic_gf2Poly low)).2 ?_).symm
    rw [degree_gf2Poly, ← Nat.zero_add low.length, ← h]
    exact degree_gf2Poly_lt w
  | succ L ih =>
    match w, h with
    | [], h =>
      rw [List.length_nil] at h
      omega
    | x :: w, h =>
      have rest : w.length = L + low.length := by
        rw [List.length_cons] at h
        omega
      rw [crcDiv_succ, List.drop_succ_cons, ih ((length_xorIf x w low).trans rest), gf2Poly_xorIf_modByMonic x rest]

variable {g : Bits} (lead : g.head? = some true)
include lead

theorem gf2Poly_crcGen (s : Bits) :
    gf2Poly (crcGen s g) = (gf2Poly s * X ^ (g.length - 1)) %ₘ gf2Poly g := by
  obtain ⟨low, rfl⟩ := exists_of_leading_one lead
  rw [crcGen, gf2Poly_crcDiv_drop (by simp), gf2Poly_append, gf2Poly_zeros, length_zeros, add_zero]

theorem gf2Poly_crcRem {f : Bits} (h : g.length - 1 ≤ f.length) :
    gf2Poly (crcRem f g) = gf2Poly f %ₘ gf2Poly g := by
  obtain ⟨low, rfl⟩ := exists_of_leading_one lead
  exact gf2Poly_crcDiv_drop (Nat.sub_add_cancel h).symm

end polynomials

theorem crcOk_iff_crcRem (f g : Bits) : crcOk f g = true ↔ crcRem f g = zeros (crcRem f g).length := by
  simp [crcOk, zeros, List.eq_replicate_iff]

/-- A string validates exactly when it is a multiple of the polynomial (41_crc.md R457, R458). -/
theorem crcOk_iff_dvd {f g : Bits} (lead : g.head? = some true) (h : g.length - 1 ≤ f.length) :
    crcOk f g = true ↔ gf2Poly g ∣ gf2Poly f := by
  have monic : (gf2Poly g).Monic := by
    obtain ⟨low, rfl⟩ := exists_of_leading_one lead
    exact monic_gf2Poly low
  rw [crcOk_iff_crcRem, ← gf2Poly_eq_zero_iff, gf2Poly_crcRem lead h, Polynomial.modByMonic_eq_zero_iff_dvd monic]

/-- Settles O46: each position keeps the residue, and what is left has a degree below the polynomial's. -/
theorem crcIsThePolynomialRemainder : Obligations.CrcIsThePolynomialRemainder := by
  unfold Obligations.CrcIsThePolynomialRemainder
  exact fun s g lead => ⟨gf2Poly_crcGen lead s, gf2Poly_crcRem lead⟩

/-- Settles O47: over GF(2) adding the remainder takes it away, which leaves a multiple of the polynomial. -/
theorem freshCrcValidates : Obligations.FreshCrcValidates := by
  unfold Obligations.FreshCrcValidates
  intro s g lead
  rw [crcOk_iff_dvd lead (by simp), gf2Poly_append, length_crcGen, gf2Poly_crcGen lead, ← CharTwo.sub_eq_add]
  exact ⟨_, sub_eq_iff_eq_add'.2 (Polynomial.modByMonic_add_div _ _).symm⟩

/-! ## The bit-serial register -/

theorem xorInto_zeros_left (c : Bits) : xorInto (zeros c.length) c = c := by
  induction c with
  | nil => rfl
  | cons b c ih => simp [zeros_succ, xorInto, ih]

theorem xorInto_concat_false (w c : Bits) : xorInto w (c ++ [false]) = xorInto w c := by
  induction c generalizing w with
  | nil => cases w <;> simp [xorInto]
  | cons b c ih => cases w <;> simp [xorInto, ih]

theorem xorInto_zeros_right (w : Bits) (k : Nat) : xorInto w (zeros k) = w := by
  induction k with
  | zero => cases w <;> rfl
  | succ k ih => rw [zeros, List.replicate_succ', xorInto_concat_false, ← zeros, ih]

theorem xorInto_xorIf (x : Bool) (w : Bits) {c g : Bits} (h : c.length = g.length) :
    xorInto w (xorIf x c g) = xorIf x (xorInto w c) g := by
  induction w generalizing c g with
  | nil => cases xorIf x c g <;> cases c <;> simp [xorInto]
  | cons a w ih =>
    match c, g, h with
    | [], [], _ => simp
    | p :: c, q :: g, h => simp [xorInto, ih (Nat.succ.inj h)]

/-- The first bit added in, and the rest one place on. -/
theorem xorInto_cons_left (d : Bool) (w c : Bits) :
    xorInto (d :: w) c = (d ^^ c.headD false) :: xorInto w (c ++ [false]).tail := by
  cases c with
  | nil => cases w <;> simp [xorInto]
  | cons x c => exact congrArg _ (xorInto_concat_false w c).symm

/-- One step of the register of 41_crc.md R462, on its bits: shift in a 0, and add the polynomial's lower bits when the
bit shifted out differs from the input. -/
def crcShift (low c : Bits) (d : Bool) : Bits := xorIf (c.headD false ^^ d) (c ++ [false]).tail low

@[simp] theorem length_crcShift (low c : Bits) (d : Bool) : (crcShift low c d).length = c.length := by
  simp [crcShift]

/-- The register, started at `c`, divides the string with `c` added to its first bits: it holds those of the working
buffer that the division has reached. -/
theorem foldl_crcShift (s : Bits) {low c : Bits} (h : c.length = low.length) :
    s.foldl (crcShift low) c
      = (crcDiv s.length (xorInto (s ++ zeros low.length) c) (true :: low)).drop s.length := by
  induction s generalizing c with
  | nil => exact (h ▸ xorInto_zeros_left c).symm
  | cons d s ih =>
    have shifted : (c ++ [false]).tail.length = low.length := by simpa using h
    calc (d :: s).foldl (crcShift low) c
      _ = (crcDiv s.length (xorInto (s ++ zeros low.length) (crcShift low c d)) (true :: low)).drop s.length := by
        rw [List.foldl_cons, ih (by simpa using h)]
      _ = (crcDiv (s.length + 1) (xorInto (d :: (s ++ zeros low.length)) c) (true :: low)).drop (s.length + 1) := by
        rw [xorInto_cons_left, crcDiv_succ, List.drop_succ_cons, crcShift, xorInto_xorIf _ _ shifted, Bool.xor_comm d]

theorem crcGen_eq_foldl (s low : Bits) : crcGen s (true :: low) = s.foldl (crcShift low) (zeros low.length) := by
  rw [foldl_crcShift s (length_zeros _), xorInto_zeros_right]
  rfl

/-- The same step on the register's value, as 41_crc.md R462 writes it. -/
def serialStep (low : Bits) (r : Nat) (d : Bool) : Nat :=
  let shifted := (r <<< 1) &&& (2 ^ low.length - 1)
  if r.testBit (low.length - 1) ^^ d then shifted ^^^ val low else shifted

theorem testBit_val_cons (x : Bool) (c : Bits) (i : Nat) :
    (val (x :: c)).testBit i = if i < c.length then (val c).testBit i else x.toNat.testBit (i - c.length) := by
  rw [val_cons, mul_comm, Nat.testBit_two_pow_mul_add _ (val_lt c)]

theorem val_xorInto {w g : Bits} (h : w.length = g.length) : val (xorInto w g) = val w ^^^ val g := by
  induction w generalizing g with
  | nil =>
    obtain rfl := List.eq_nil_of_length_eq_zero h.symm
    rfl
  | cons a w ih =>
    match g, h with
    | b :: g, h =>
      have rest : w.length = g.length := Nat.succ.inj h
      have head (i : Nat) : (a ^^ b).toNat.testBit i = (a.toNat.testBit i ^^ b.toNat.testBit i) := by
        cases a <;> cases b <;> simp
      apply Nat.eq_of_testBit_eq
      intro i
      rw [xorInto, Nat.testBit_xor, testBit_val_cons, testBit_val_cons, testBit_val_cons, length_xorInto, ← rest,
        ih rest, Nat.testBit_xor, head]
      split <;> rfl

theorem val_concat_false_tail (c : Bits) : val (c ++ [false]).tail = val c * 2 % 2 ^ c.length := by
  cases c with
  | nil => rfl
  | cons x c =>
    have small := val_lt c
    have shifted : val (x :: c) * 2 = val c * 2 + 2 ^ (c.length + 1) * x.toNat := by rw [val_cons]; ring
    rw [shifted, List.length_cons, Nat.add_mul_mod_self_left, Nat.mod_eq_of_lt (by omega)]
    exact val_append c [false]

theorem val_crcShift {low c : Bits} (d : Bool) (h : c.length = low.length) :
    val (crcShift low c d) = serialStep low (val c) d := by
  have feedback : (val c).testBit (low.length - 1) = c.headD false := by
    rw [← h]
    cases c with
    | nil => rfl
    | cons x c => cases x <;> simp [testBit_val_cons]
  have shifted : val (c ++ [false]).tail = (val c <<< 1) &&& (2 ^ low.length - 1) := by
    rw [← h, Nat.and_two_pow_sub_one_eq_mod, Nat.shiftLeft_eq, pow_one, val_concat_false_tail]
  rw [serialStep, crcShift, feedback, ← shifted]
  cases c.headD false ^^ d with
  | false => rfl
  | true => exact val_xorInto (by simpa using h)

theorem val_foldl_crcShift (s : Bits) {low c : Bits} (h : c.length = low.length) :
    val (s.foldl (crcShift low) c) = s.foldl (serialStep low) (val c) := by
  induction s generalizing c with
  | nil => rfl
  | cons d s ih => rw [List.foldl_cons, List.foldl_cons, ih (by simpa using h), val_crcShift d h]

/-- Settles O49: the register holds the bits of the working buffer that the division has reached. -/
theorem serialRegisterComputesTheCrc : Obligations.SerialRegisterComputesTheCrc := by
  unfold Obligations.SerialRegisterComputesTheCrc
  intro s g lead
  obtain ⟨low, rfl⟩ := exists_of_leading_one lead
  rw [crcGen_eq_foldl, val_foldl_crcShift s (length_zeros _), val_zeros]
  rfl

end Sys2Proof

namespace Sys2Proof.Machine

/-! ## The commands -/

section commands
variable {sc : Scheme} {g : Bits} (crc : sc.poly? = some g)
include crc

/-- What a GEN command of a CRC scheme answers (41_crc.md R465). -/
theorem exec_genInstr_crc (s : State) :
    (65536 < s.datLen.toNat →
      exec (genInstr sc) s = .next { s with status := { s.status with err := .length, sticky := true } })
    ∧ ∀ bits, s.datLen.toNat ≤ 65536 → s.dat.readBits 0 s.datLen.toNat = some bits →
        exec (genInstr sc) s = .next
          { s with code := BitVec.ofNat 64 (val (crcGen bits g)), status := { s.status with err := .none } } := by
  have code (bits : Bits) : sc.generate bits = crcGen bits g := by rw [Scheme.generate, crc]
  rw [exec_genInstr]
  refine ⟨fun long => withOperand_of_long (b := .dat) long, fun bits fits read => ?_⟩
  rw [← code]
  exact withOperand_of_written (b := .dat) fits (Nat.zero_le _) read

/-- What a CHK command of a CRC scheme answers (41_crc.md R466). -/
theorem exec_chkInstr_crc {r : Nat} (width : sc.codeWidth = r) (s : State) :
    (65536 < s.datLen.toNat →
      exec (chkInstr sc) s
        = .next { s with status := { s.status with err := .length, sticky := true, result := .none } })
    ∧ (s.datLen.toNat < r →
        exec (chkInstr sc) s = .next
          { s with status := { s.status with err := .truncatedFrame, sticky := true, result := .none } })
    ∧ ∀ f, r ≤ s.datLen.toNat → s.datLen.toNat ≤ 65536 → s.dat.readBits 0 s.datLen.toNat = some f →
        exec (chkInstr sc) s = .next
          { s with
            code := BitVec.ofNat 64 (val (crcRem f g))
            status :=
              { s.status with
                result := if crcRem f g = List.replicate r false then .valid else .invalid
                err := .none } } := by
  have length : r = g.length - 1 := by rw [← width, Scheme.codeWidth, crc]
  have code (f : Bits) : sc.checkCode f = val (crcRem f g) := by rw [Scheme.checkCode, crc]
  rw [exec_chkInstr, checkDat, width]
  refine ⟨fun long => withOperand_of_long (b := .dat) long, fun short => ?_, fun f long fits read => ?_⟩
  · have narrow := (codeWidth_bounds sc).2
    have fits : s.datLen.toNat ≤ 65536 := by omega
    exact withOperand_of_short (b := .dat) fits short
  · have passes : sc.checkOk f = crcOk f g := by rw [Scheme.checkOk, crc]
    have zero : crcOk f g = true ↔ crcRem f g = zeros r := by
      rw [crcOk_iff_crcRem, length_crcRem (by rw [Memory.readBits_length read, ← length]; exact long), ← length]
    rw [withOperand_of_written (b := .dat) fits long read, State.recordCheck, code, passes, CheckResult.ofCheck]
    simp only [zero]
    rfl

end commands

/-- Settles O27: the four words are those of the GEN commands of the CRC schemes. -/
theorem genCrcWritesTheCode : Obligations.GenCrcWritesTheCode := by
  unfold Obligations.GenCrcWritesTheCode
  refine ⟨rfl, length_polyCrc10, length_polyCrc16, length_polyCrc32, fun w i g hmem => ?_⟩
  simp only [List.mem_cons, Prod.mk.injEq, List.not_mem_nil, or_false] at hmem
  obtain ⟨rfl, rfl, rfl⟩ | ⟨rfl, rfl, rfl⟩ | ⟨rfl, rfl, rfl⟩ | ⟨rfl, rfl, rfl⟩ := hmem
  · exact ⟨decode_encode .genCrc8, exec_genInstr_crc (sc := .crc8) rfl⟩
  · exact ⟨decode_encode .genCrc10, exec_genInstr_crc (sc := .crc10) rfl⟩
  · exact ⟨decode_encode .genCrc16, exec_genInstr_crc (sc := .crc16) rfl⟩
  · exact ⟨decode_encode .genCrc32, exec_genInstr_crc (sc := .crc32) rfl⟩

/-- Settles O29: the four words are those of the CHK commands of the CRC schemes, and the widths their codes'. -/
theorem chkCrcReportsTheRemainder : Obligations.ChkCrcReportsTheRemainder := by
  unfold Obligations.ChkCrcReportsTheRemainder
  intro w i g r hmem
  simp only [List.mem_cons, Prod.mk.injEq, List.not_mem_nil, or_false] at hmem
  obtain ⟨rfl, rfl, rfl, rfl⟩ | ⟨rfl, rfl, rfl, rfl⟩ | ⟨rfl, rfl, rfl, rfl⟩ | ⟨rfl, rfl, rfl, rfl⟩ :=
    hmem
  · exact ⟨decode_encode .chkCrc8, exec_chkInstr_crc (sc := .crc8) rfl rfl⟩
  · exact ⟨decode_encode .chkCrc10, exec_chkInstr_crc (sc := .crc10) rfl codeWidth_crc10⟩
  · exact ⟨decode_encode .chkCrc16, exec_chkInstr_crc (sc := .crc16) rfl codeWidth_crc16⟩
  · exact ⟨decode_encode .chkCrc32, exec_chkInstr_crc (sc := .crc32) rfl codeWidth_crc32⟩

end Sys2Proof.Machine
end

section
/-! The checksum (42_checksum.md R500 to R511): its sum is the value of the string, reduced modulo 0xFFFF with the
end-around carry (O50, O52); a string with its code appended validates (O51); the commands write and compare it (O26,
O28). -/
namespace Sys2Proof

/-! ## The sum -/

/-- `n` reduced modulo 0xFFFF, with 0xFFFF in the place of 0 where `n` is not 0: the sum that the end-around carry
leaves of `n` (42_checksum.md R503). -/
def endAround (n : Nat) : Nat := if n = 0 then 0 else (n - 1) % 0xFFFF + 1

@[simp] theorem endAround_zero : endAround 0 = 0 := rfl

theorem endAround_le (n : Nat) : endAround n ≤ 0xFFFF := by
  unfold endAround
  split <;> omega

@[simp] theorem endAround_eq_zero_iff {n : Nat} : endAround n = 0 ↔ n = 0 := by
  unfold endAround
  split <;> omega

theorem endAround_congr {m n : Nat} (residue : m % 0xFFFF = n % 0xFFFF) (zero : m = 0 ↔ n = 0) :
    endAround m = endAround n := by
  unfold endAround
  split <;> split <;> omega

/-- The end-around carry takes 0xFFFF off a sum that is too wide (42_checksum.md R503). -/
theorem csumStep_eq {sum word : Nat} (hs : sum ≤ 0xFFFF) (hw : word ≤ 0xFFFF) :
    csumStep sum word = if 0xFFFF < sum + word then sum + word - 0xFFFF else sum + word := by
  have mask : (sum + word) &&& 0xFFFF = (sum + word) % 0x10000 := Nat.and_two_pow_sub_one_eq_mod _ 16
  rw [csumStep, mask]
  split <;> omega

theorem csumStep_le {sum word : Nat} (hs : sum ≤ 0xFFFF) (hw : word ≤ 0xFFFF) : csumStep sum word ≤ 0xFFFF := by
  rw [csumStep_eq hs hw]
  split <;> omega

/-- Adding a word to the sum appends it to the number, for 2 ^ 16 is 1 modulo 0xFFFF. -/
theorem csumStep_endAround (n : Nat) {word : Nat} (hw : word ≤ 0xFFFF) :
    csumStep (endAround n) word = endAround (n * 2 ^ 16 + word) := by
  rw [csumStep_eq (endAround_le n) hw]
  unfold endAround
  split_ifs <;> omega

theorem foldl_csumStep (k n : Nat) {s : Bits} (h : s.length = 16 * k) :
    (words16 k s).foldl csumStep (endAround n) = endAround (n * 2 ^ s.length + val s) := by
  induction k generalizing n s with
  | zero => simp [List.eq_nil_of_length_eq_zero h, words16]
  | succ k ih =>
    have first : (s.take 16).length = 16 := by rw [List.length_take]; omega
    have rest : (s.drop 16).length = 16 * k := by rw [List.length_drop]; omega
    have word : val (s.take 16) ≤ 0xFFFF := by
      have := val_lt (s.take 16)
      rw [first] at this; omega
    have value : val s = val (s.take 16) * 2 ^ (16 * k) + val (s.drop 16) := by
      rw [← rest, ← val_append, List.take_append_drop]
    have power : 2 ^ (16 * (k + 1)) = 2 ^ 16 * 2 ^ (16 * k) := by rw [Nat.mul_succ, pow_add, mul_comm]
    rw [words16, List.foldl_cons, csumStep_endAround n word, ih _ rest, rest, h, power, value, add_mul, mul_assoc,
      add_assoc]

@[simp] theorem val_zeros_append (k : Nat) (s : Bits) : val (zeros k ++ s) = val s := by simp [val_append]

@[simp] theorem val_leftPad16 (s : Bits) : val (leftPad16 s) = val s := val_zeros_append _ s

theorem length_leftPad16 (s : Bits) : (leftPad16 s).length = 16 * ((leftPad16 s).length / 16) := by
  simp only [leftPad16, List.length_append, length_zeros]; omega

/-- The sum of a string's words is the string's value, reduced (42_checksum.md R503). -/
theorem csumSum_eq (s : Bits) : csumSum s = endAround (val s) := by
  simpa [csumSum] using foldl_csumStep ((leftPad16 s).length / 16) 0 (length_leftPad16 s)

theorem csumSum_le (s : Bits) : csumSum s ≤ 0xFFFF := csumSum_eq s ▸ endAround_le _

theorem csumGen_toNat (s : Bits) : (csumGen s).toNat = 0xFFFF - csumSum s := by
  have := csumSum_le s
  rw [csumGen, BitVec.toNat_not, BitVec.toNat_ofNat, Nat.mod_eq_of_lt (by omega)]

/-- Settles O50: the sum is a value reduced with the end-around carry, and the value of zeros is 0. -/
theorem checksumSumStaysSixteenBits : Obligations.ChecksumSumStaysSixteenBits := by
  unfold Obligations.ChecksumSumStaysSixteenBits
  refine ⟨fun _ _ => csumStep_le, fun s => ⟨csumSum_le s, csumGen_toNat s⟩, fun k => ?_⟩
  have sum : csumSum (List.replicate k false) = 0 := by
    rw [csumSum_eq, endAround_eq_zero_iff]
    exact val_zeros k
  rw [csumGen, sum]
  rfl

/-! ## The order of the words -/

theorem val_eq_zero_iff (s : Bits) : val s = 0 ↔ ∀ b ∈ s, b = false := by
  constructor
  · intro zero
    have : s = zeros s.length := val_inj (length_zeros _).symm (by rw [zero, val_zeros])
    exact (List.eq_replicate_iff.mp this).2
  · intro h
    rw [List.eq_replicate_iff.mpr ⟨rfl, h⟩]
    exact val_zeros _

/-- A string of whole words is the sum of its words modulo 0xFFFF. -/
theorem val_flatten_mod {ws : List Bits} (h : ∀ w ∈ ws, w.length = 16) :
    val ws.flatten % 0xFFFF = (ws.map val).sum % 0xFFFF := by
  induction ws with
  | nil => rfl
  | cons w ws ih =>
    have h' := fun v hv => h v (List.mem_cons_of_mem w hv)
    have length : ws.flatten.length = 16 * ws.length := by
      rw [List.length_flatten, List.map_congr_left h', List.map_const', List.sum_replicate, smul_eq_mul, mul_comm]
    have one : 2 ^ (16 * ws.length) ≡ 1 [MOD 0xFFFF] := by
      rw [pow_mul]
      simpa using (show 2 ^ 16 ≡ 1 [MOD 0xFFFF] by decide).pow ws.length
    rw [List.flatten_cons, val_append, length, List.map_cons, List.sum_cons]
    exact ((one.mul_left (val w)).trans (by rw [mul_one])).add (ih h')

/-- Settles O52: the sum depends on the residue of the value and on whether it is 0; the order of the words changes
neither, leading zeros not even the value. -/
theorem checksumIgnoresWordOrder : Obligations.ChecksumIgnoresWordOrder := by
  unfold Obligations.ChecksumIgnoresWordOrder
  refine ⟨fun ws vs perm words => ?_, fun k s => ?_, fun s => ⟨?_, ?_⟩⟩
  · have residue : val ws.flatten % 0xFFFF = val vs.flatten % 0xFFFF := by
      rw [val_flatten_mod words, val_flatten_mod fun v hv => words v (perm.mem_iff.mpr hv), (perm.map val).sum_eq]
    have zero : val ws.flatten = 0 ↔ val vs.flatten = 0 := by
      simp only [val_eq_zero_iff, perm.flatten.mem_iff]
    rw [csumGen, csumGen, csumSum_eq, csumSum_eq, endAround_congr residue zero]
  · have value : val (List.replicate (16 * k) false ++ s) = val s := val_zeros_append _ s
    rw [csumGen, csumGen, csumSum_eq, csumSum_eq, value]
  · have bound := csumSum_le s
    rw [← BitVec.toNat_inj, csumGen_toNat, show (0 : BitVec 16).toNat = 0 from rfl]
    omega
  · rw [csumSum_eq, endAround_eq_zero_iff, val_eq_zero_iff]

/-! ## The check -/

section check
variable (data : Bits) {code : Bits} (h : code.length = 16)
include h

theorem length_sub_code : (data ++ code).length - 16 = data.length := by rw [List.length_append, h, Nat.add_sub_cancel]

/-- A check recomputes the code of the data before the code (42_checksum.md R506). -/
theorem checkCode_checksum_append : Scheme.checksum.checkCode (data ++ code) = (csumGen data).toNat := by
  change (csumGen ((data ++ code).take ((data ++ code).length - 16))).toNat = _
  rw [length_sub_code data h, List.take_left]

/-- A check passes when the code received is the one recomputed (42_checksum.md R506). -/
theorem csumOk_append_iff : csumOk (data ++ code) = true ↔ (csumGen data).toNat = val code := by
  rw [csumOk, length_sub_code data h, List.take_left, List.drop_left, beq_iff_eq]

end check

/-- Settles O51: the code appended is the code recomputed. -/
theorem freshChecksumValidates : Obligations.FreshChecksumValidates := by
  unfold Obligations.FreshChecksumValidates
  intro s
  rw [csumOk_append_iff s (length_bitsOf 16 _), val_bitsOf_toNat]

end Sys2Proof

namespace Sys2Proof.Machine

/-! ## The commands -/

/-- Settles O26: GEN.CSUM is the GEN command of the checksum, whose code has the checksum as its value. -/
theorem genCsumWritesTheChecksum : Obligations.GenCsumWritesTheChecksum := by
  unfold Obligations.GenCsumWritesTheChecksum
  refine ⟨decode_encode .genCsum, fun s =>
    ⟨fun long => withOperand_of_long (b := .dat) long, fun bits fits read => ?_⟩⟩
  have code : val (Scheme.checksum.generate bits) = (csumGen bits).toNat := val_bitsOf_toNat _
  rw [← code]
  exact withOperand_of_written (b := .dat) fits (Nat.zero_le _) read

/-- Settles O28: CHK.CSUM is the CHK command of the checksum, which compares the last 16 bits with the recomputed
code. -/
theorem chkCsumComparesWithTheRecomputed : Obligations.ChkCsumComparesWithTheRecomputed := by
  unfold Obligations.ChkCsumComparesWithTheRecomputed
  refine ⟨decode_encode .chkCsum, fun s =>
    ⟨fun long => withOperand_of_long (b := .dat) long, fun short => ?_, fun data code width fits read => ?_⟩⟩
  · have fits : s.datLen.toNat ≤ 65536 := by omega
    exact withOperand_of_short (b := .dat) fits short
  · have long : 16 ≤ s.datLen.toNat := by
      rw [← Memory.readBits_length read, List.length_append, width]; omega
    have result : CheckResult.ofCheck (Scheme.checksum.checkOk (data ++ code))
        = if (csumGen data).toNat = val code then .valid else .invalid :=
      if_congr (csumOk_append_iff data width) rfl rfl
    rw [show exec .chkCsum s = .next (s.recordCheck .checksum (data ++ code)) from
      withOperand_of_written (b := .dat) fits long read, State.recordCheck,
      checkCode_checksum_append data width, result]
    rfl

end Sys2Proof.Machine
end

section
/-! The header packer and unpacker (43_header.md): HPACK writes the header (O30), HUNPACK slices a frame at the fixed
offsets (O31), and unpacking a packed frame gives back its fields (O55). -/
namespace Sys2Proof

section slices
variable {s t : Bits} {a b : Nat}

theorem slice_append_left (h : s.length = b) : slice (s ++ t) 0 b = s := List.take_left' h

theorem slice_append_right (h : s.length ≤ a) : slice (s ++ t) a b = slice t (a - s.length) (b - s.length) := by
  rw [slice, slice, List.drop_append, List.drop_eq_nil_of_le h, List.nil_append, Nat.sub_sub_sub_cancel_right h]

theorem slice_to_length (f : Bits) (a : Nat) : slice f a f.length = f.drop a :=
  List.take_of_length_le List.length_drop.le

/-- A slice of one bit. -/
theorem slice_one {f : Bits} {i : Nat} (h : i < f.length) : slice f i (i + 1) = [f.getD i false] := by
  rw [slice, Nat.add_sub_cancel_left, List.drop_eq_getElem_cons h, List.getD_eq_getElem _ _ h]
  rfl

/-- A register as wide as a slice holds the slice's value. -/
theorem toNat_ofNat_val_slice {n : Nat} (f : Bits) (h : b - a ≤ n) :
    (BitVec.ofNat n (val (slice f a b))).toNat = val (slice f a b) := by
  refine Nat.mod_eq_of_lt ((val_lt _).trans_le (Nat.pow_le_pow_right (by decide) ?_))
  rw [length_slice]
  omega

end slices

/-- How many bits of code a frame of this tag carries: none where the tag is unknown (43_header.md R559). -/
def TagValue.codeWidth : TagValue → Nat
  | .known sc => sc.codeWidth
  | .unknown _ => 0

/-- Whether a tag is one of the table, as RXF_CTL.KNOWN reports (43_header.md R559). -/
def TagValue.isKnown : TagValue → Bool
  | .known _ => true
  | .unknown _ => false

@[simp] theorem TagValue.codeWidth_known (sc : Scheme) : (TagValue.known sc).codeWidth = sc.codeWidth := rfl
@[simp] theorem TagValue.codeWidth_unknown (raw : BitVec 7) : (TagValue.unknown raw).codeWidth = 0 := rfl
@[simp] theorem TagValue.isKnown_known (sc : Scheme) : (TagValue.known sc).isKnown = true := rfl
@[simp] theorem TagValue.isKnown_unknown (raw : BitVec 7) : (TagValue.unknown raw).isKnown = false := rfl

theorem TagValue.codeWidth_le (tag : TagValue) : tag.codeWidth ≤ 34 := by
  cases tag with
  | known sc => exact (codeWidth_bounds sc).2
  | unknown raw => exact Nat.zero_le 34

end Sys2Proof

namespace Sys2Proof.Machine

/-! ## Unpacking -/

section unpack
variable {f : Bits}

theorem frameTag_of_scheme {sc : Scheme} (h : sc.tag.toNat = val (slice f 113 120)) : frameTag f = .known sc := by
  rw [frameTag, ← h, BitVec.ofNat_toNat, BitVec.setWidth_eq, decodeTag_tag]

theorem frameTag_of_unknown (h : 5 ≤ val (slice f 113 120)) : ∃ raw, frameTag f = .unknown raw := by
  obtain ⟨sc, tag, -⟩ | ⟨-, unknown⟩ := decodeTag_cases (BitVec.ofNat 7 (val (slice f 113 120)))
  · have known := sc.tag_le
    rw [← tag, toNat_ofNat_val_slice f (by decide)] at known
    omega
  · exact ⟨_, unknown⟩

/-- `Unpack(f)` for both kinds of tag: an unknown one is a code of width 0 (43_header.md R559). -/
theorem unpack_eq (least : 128 ≤ f.length) :
    unpack f =
      if f.length < 120 + (frameTag f).codeWidth then none
      else some (unpackedFields f (frameTag f).isKnown (f.length - 120 - (frameTag f).codeWidth)
        (val (slice f (f.length - (frameTag f).codeWidth) f.length))) := by
  rw [unpack, leastFrameBits, if_neg (Nat.not_lt.2 least), slice_to_length]
  cases frameTag f with
  | known sc => rfl
  | unknown raw =>
    have long : 120 ≤ f.length := by omega
    simp [long]

/-- What unpacking leaves in the registers (43_header.md R559). -/
theorem unpack_fields {r : Nat} (least : 128 ≤ f.length) (fits : f.length < 2 ^ 32)
    (width : (frameTag f).codeWidth = r) (long : 120 + r ≤ f.length) :
    ∃ u, unpack f = some u
      ∧ u.srcIp.toNat = val (slice f 0 32) ∧ u.srcPort.toNat = val (slice f 32 48)
      ∧ u.dstIp.toNat = val (slice f 48 80) ∧ u.dstPort.toNat = val (slice f 80 96)
      ∧ u.len.toNat = val (slice f 96 112) ∧ slice f 112 113 = [u.last]
      ∧ u.tag.toNat = val (slice f 113 120) ∧ u.known = (frameTag f).isKnown
      ∧ u.region.toNat = f.length - 120 - r
      ∧ u.lenErr = decide (f.length - 120 - r < val (slice f 96 112))
      ∧ u.code.toNat = val (slice f (f.length - r) f.length) := by
  have narrow := (frameTag f).codeWidth_le
  have field {n a b : Nat} (h : b - a ≤ n) := toNat_ofNat_val_slice (n := n) f h
  rw [unpack_eq least, width, if_neg (Nat.not_lt.2 long)]
  exact ⟨_, rfl, field (by decide), field (by decide), field (by decide), field (by decide), field (by decide),
    slice_one (by omega), field (by decide), rfl, Nat.mod_eq_of_lt (by omega), rfl, field (by omega)⟩

end unpack

section hunpack
variable {s : State} {f : Bits} (fits : s.rxbLen.toNat ≤ 65536)
  (read : s.rx.readBits 0 s.rxbLen.toNat = some f)
include fits read

/-- HUNPACK of a frame that does not unpack (43_header.md R560). -/
theorem exec_hunpack_of_none (h : unpack f = none) :
    exec .hunpack s = .next (s.raiseError false .truncatedFrame) := by
  by_cases short : s.rxbLen.toNat < leastFrameBits
  · exact withOperand_of_short (b := .rx) fits short
  · refine (withOperand_of_written (b := .rx) fits (Nat.not_lt.1 short) read).trans ?_
    rw [h]

/-- HUNPACK of a frame that unpacks (43_header.md R560). -/
theorem exec_hunpack_of_some {u : RxFields} (least : 128 ≤ f.length) (h : unpack f = some u) :
    exec .hunpack s = .next (s.setRxf u).succeed := by
  rw [Memory.readBits_length read] at least
  refine (withOperand_of_written (b := .rx) fits least read).trans ?_
  rw [h]

end hunpack

/-- Settles O31: HUNPACK answers what unpacking the frame does, which depends on the tag by its width and KNOWN. -/
theorem hunpackSlicesTheFrame : Obligations.HunpackSlicesTheFrame := by
  unfold Obligations.HunpackSlicesTheFrame
  refine ⟨decode_encode .hunpack, fun s long => withOperand_of_long (b := .rx) long, fun s f fits read =>
    ⟨fun short => exec_hunpack_of_none fits read (unpack_eq_none_iff.2 (.inl short)),
      fun least known r htag => ?_⟩⟩
  obtain ⟨rfl, rfl⟩ : known = (frameTag f).isKnown ∧ r = (frameTag f).codeWidth := by
    obtain ⟨sc, tag, rfl, rfl⟩ | ⟨tag, rfl, rfl⟩ := htag
    · rw [frameTag_of_scheme tag]
      exact ⟨rfl, rfl⟩
    · obtain ⟨raw, unknown⟩ := frameTag_of_unknown tag
      rw [unknown]
      exact ⟨rfl, rfl⟩
  have bound : f.length < 2 ^ 32 := by
    rw [Memory.readBits_length read]
    omega
  refine ⟨fun short => exec_hunpack_of_none fits read ((unpack_eq least).trans (if_pos short)), fun long => ?_⟩
  obtain ⟨u, unpacks, fields⟩ := unpack_fields least bound rfl long
  exact ⟨_, exec_hunpack_of_some fits read least unpacks, rfl, fields⟩

/-! ## Packing -/

/-- The fields of a header stand at their offsets, whatever follows it (30_encoding.md R321). -/
theorem slice_header {srcIp dstIp : Word} {srcPort dstPort len : BitVec 16} {last : Bool} {tag : BitVec 7}
    {f rest : Bits} (hf : header srcIp srcPort dstIp dstPort len last tag ++ rest = f) :
    slice f 0 32 = bitsOf 32 srcIp.toNat ∧ slice f 32 48 = bitsOf 16 srcPort.toNat
    ∧ slice f 48 80 = bitsOf 32 dstIp.toNat ∧ slice f 80 96 = bitsOf 16 dstPort.toNat
    ∧ slice f 96 112 = bitsOf 16 len.toNat ∧ slice f 112 113 = [last] ∧ slice f 113 120 = bitsOf 7 tag.toNat := by
  subst hf
  simp only [header, List.append_assoc, slice_append_left, slice_append_right, length_bitsOf, List.length_singleton,
    Nat.reduceLeDiff, Nat.reduceSub, and_self]

/-- Settles O55: the fields are sliced where the header put them, and the code is what stands after the region. -/
theorem unpackInvertsPacking : Obligations.UnpackInvertsPacking := by
  unfold Obligations.UnpackInvertsPacking
  intro srcIp dstIp srcPort dstPort len last sc region code width fits
  generalize hf : header srcIp srcPort dstIp dstPort len last sc.tag ++ region ++ code = f
  have length : f.length = 120 + region.length + sc.codeWidth := by
    rw [← hf, List.length_append, List.length_append, length_header, width]
  have region_length : f.length - 120 - sc.codeWidth = region.length := by omega
  have hcode : slice f (f.length - sc.codeWidth) f.length = code := by
    rw [slice_to_length, length, Nat.add_sub_cancel, ← hf]
    exact List.drop_left' (by rw [List.length_append, length_header])
  obtain ⟨hsip, hsport, hdip, hdport, hlen, hlast, htag⟩ := slice_header ((List.append_assoc _ _ _).symm.trans hf)
  have known : frameTag f = .known sc := frameTag_of_scheme (by rw [htag, val_bitsOf_toNat])
  have tag_width : (frameTag f).codeWidth = sc.codeWidth := by rw [known, TagValue.codeWidth_known]
  obtain ⟨wide, narrow⟩ := codeWidth_bounds sc
  obtain ⟨u, unpacks, fields⟩ := unpack_fields (f := f) (by omega) (by omega) tag_width (by omega)
  simp only [hsip, hsport, hdip, hdport, hlen, hlast, htag, hcode, region_length, val_bitsOf_toNat, BitVec.toNat_inj,
    known, TagValue.isKnown_known, List.cons.injEq, and_true, eq_comm (a := last)] at fields
  exact ⟨u, unpacks, fields⟩

/-! ## HPACK -/

section hpack
variable (s : State)

theorem State.hdrLen_toNat : s.hdrLen.toNat = s.hdrCtl.toNat % 65536 := by
  rw [State.hdrLen, BitVec.extractLsb'_toNat, Nat.shiftRight_zero]

theorem State.bitsOf_hdrLast : bitsOf 1 (s.hdrCtl.toNat / 65536) = [s.hdrLast] := by
  have bit : (s.hdrCtl.toNat / 2 ^ 16).testBit 0 = s.hdrLast := Nat.testBit_div_two_pow _ _
  rw [← bit]
  rfl

/-- The packed header in terms of HDR_CTL: LEN is its low 16 bits, LAST the bit above (10_state.md R108). -/
theorem State.packedHeader_eq (tag : BitVec 7) :
    s.packedHeader tag =
      bitsOf 32 s.srcIp.toNat ++ bitsOf 16 s.srcPort.toNat ++ bitsOf 32 s.dstIp.toNat
        ++ bitsOf 16 s.dstPort.toNat ++ bitsOf 16 (s.hdrCtl.toNat % 65536) ++ bitsOf 1 (s.hdrCtl.toNat / 65536)
        ++ bitsOf 7 tag.toNat := by
  rw [State.packedHeader, header, State.hdrLen_toNat, State.bitsOf_hdrLast]

theorem State.length_packedHeader_zeros (tag : BitVec 7) : (s.packedHeader tag ++ zeros 8).length = 128 := by
  simp [State.packedHeader]

end hpack

/-- Settles O30: HPACK stores the header and 8 zero bits, 16 bytes, from bit 0 of TX. -/
theorem hpackWritesTheHeader : Obligations.HpackWritesTheHeader := by
  unfold Obligations.HpackWritesTheHeader
  intro s tag
  have length := State.length_packedHeader_zeros s tag
  refine ⟨encode_hpack tag ▸ decode_encode (.hpack tag), (s.putTx (s.packedHeader tag ++ zeros 8) 120).succeed, rfl,
    rfl, ?_, fun a ha => ?_⟩
  · rw [State.succeed_tx, State.putTx_tx, Memory.readBits_storeBits _ _ (by rw [length]) length.ge,
      List.take_of_length_le length.le, State.packedHeader_eq, zeros]
  · rw [State.succeed_tx, State.putTx_tx, Memory.byte?_storeBits_of_outside _ _ (by rw [length]; exact ha)]

end Sys2Proof.Machine
end

section
/-! The latches of a segmentation (44_segmenter.md R602 to R606): the chunk widths of the schemes (O56), and what
SEG.START latches or raises (O33). -/
namespace Sys2Proof.Machine

/-- A row of R603's table in terms of its code width: the least frame size leaves 1 to 8 bits, and 8191 is the largest
FRAME_SIZE (10_state.md R103). -/
theorem segmentRow_arith {sc : Scheme} {r least : Nat} {atLeast atMost : Int}
    (h : (sc, r, least, atLeast, atMost) ∈ [(.checksum, 16, 18, 8, 65392), (.crc8, 8, 17, 8, 65400),
      (.crc10, 10, 17, 6, 65398), (.crc16, 16, 18, 8, 65392), (.crc32, 34, 20, 6, 65374)]) :
    sc.codeWidth = r ∧ atLeast = 8 * least - 120 - r ∧ 0 < atLeast ∧ atLeast ≤ 8
      ∧ atMost = 8 * 8191 - 120 - r ∧ atMost ≤ 65400 := by
  simp only [List.mem_cons, Prod.mk.injEq, List.not_mem_nil, or_false] at h
  obtain ⟨rfl, rfl, rfl, rfl, rfl⟩ | ⟨rfl, rfl, rfl, rfl, rfl⟩ | ⟨rfl, rfl, rfl, rfl, rfl⟩ | ⟨rfl, rfl, rfl, rfl, rfl⟩
    | ⟨rfl, rfl, rfl, rfl, rfl⟩ := h
  · exact ⟨codeWidth_checksum, by decide⟩
  · exact ⟨codeWidth_crc8, by decide⟩
  · exact ⟨codeWidth_crc10, by decide⟩
  · exact ⟨codeWidth_crc16, by decide⟩
  · exact ⟨codeWidth_crc32, by decide⟩

/-- Settles O56: the chunk width rises by 8 with the frame size, so its value at the least size and at 8191 bound all
others. -/
theorem acceptedChunksFitTheLengthField : Obligations.AcceptedChunksFitTheLengthField := by
  unfold Obligations.AcceptedChunksFitTheLengthField
  intro sc r least atLeast atMost row
  obtain ⟨rfl, hleast, positive, narrow, hmost, bound⟩ := segmentRow_arith row
  unfold chunkBits
  refine ⟨rfl, by omega, by omega, fun fsize => ⟨by omega, fun _ => by omega⟩⟩

section start
variable {s : State} {tag : BitVec 7}

theorem exec_segStart_of_unknown (h : decodeTag tag = .unknown tag) :
    exec (.segStart tag) s = .next (s.raiseError false .unsupportedScheme) := by
  rw [exec, execSegStart, h]

variable {sc : Scheme} (known : decodeTag tag = .known sc)
include known

theorem exec_segStart_of_long (long : capBits .pay < s.payLen.toNat) :
    exec (.segStart tag) s = .next (s.raiseError false .length) := by
  simp only [exec, execSegStart, known, if_pos long]

variable (fits : s.payLen.toNat ≤ capBits .pay)
include fits

theorem exec_segStart_of_small (small : chunkBits s.frameSize.toNat sc ≤ 0) :
    exec (.segStart tag) s = .next (s.raiseError false .frameTooSmall) := by
  simp only [exec, execSegStart, known, if_neg (Nat.not_lt.2 fits), if_pos small]

theorem exec_segStart_of_positive (positive : 0 < chunkBits s.frameSize.toNat sc) :
    exec (.segStart tag) s = .next (s.segStarted tag sc) := by
  simp only [exec, execSegStart, known, if_neg (Nat.not_lt.2 fits), if_neg (Int.not_le.2 positive)]

end start

theorem chunkBits_nonpos_iff {fsize : Nat} {sc : Scheme} :
    chunkBits fsize sc ≤ 0 ↔ 8 * fsize ≤ 120 + sc.codeWidth := by
  unfold chunkBits
  omega

theorem chunkBits_pos_iff {fsize : Nat} {sc : Scheme} :
    0 < chunkBits fsize sc ↔ 120 + sc.codeWidth < 8 * fsize := by
  unfold chunkBits
  omega

/-- SEG_CFG as a number, from its fields (10_state.md R119). -/
theorem Latches.cfgWord_toNat (l : Latches) :
    l.cfgWord.toNat = l.tag.toNat + l.r.toNat * 2 ^ 8 + l.fsize.toNat * 2 ^ 16 := by
  have append {m n : Nat} (x : BitVec m) (y : BitVec n) : (x ++ y).toNat = x.toNat * 2 ^ n + y.toNat := by
    rw [BitVec.toNat_append, ← Nat.shiftLeft_add_eq_or_of_lt y.isLt, Nat.shiftLeft_eq]
  rw [show l.cfgWord = (0#3 ++ l.fsize ++ 0#2 ++ l.r ++ 0#1 ++ l.tag : BitVec (3 + 13 + 2 + 6 + 1 + 7)) from rfl]
  simp only [append, BitVec.toNat_zero]
  omega

/-- Settles O33: the three errors in the order of the checks, then the latches and their views. -/
theorem segStartLatchesTheSegmentation : Obligations.SegStartLatchesTheSegmentation := by
  unfold Obligations.SegStartLatchesTheSegmentation
  refine ⟨fun s tag => ⟨encode_segStart tag ▸ decode_encode (.segStart tag), fun unknown => ?_, fun small long => ?_⟩,
    fun s sc fits => ⟨fun small => ?_, fun large => ?_⟩⟩
  · obtain ⟨sc, rfl, -⟩ | ⟨-, h⟩ := decodeTag_cases tag
    · have low := sc.tag_le
      omega
    · exact exec_segStart_of_unknown h
  · obtain ⟨sc, -, known⟩ | ⟨h, -⟩ := decodeTag_cases tag
    · exact exec_segStart_of_long known (params_payCapBits_eq ▸ long)
    · omega
  · exact exec_segStart_of_small (decodeTag_tag sc) (params_payCapBits_eq ▸ fits) (chunkBits_nonpos_iff.2 small)
  · rw [params_payCapBits_eq] at fits
    have positive := chunkBits_pos_iff.2 large
    obtain ⟨sc', known, hr, hsize, -⟩ := Latches.consistent_iff.1 (latched_consistent (decodeTag_tag sc) fits positive)
    obtain rfl : sc = sc' := TagValue.known.inj ((decodeTag_tag sc).symm.trans known)
    have hchunk : (s.latched sc.tag sc).chunk.toNat = 8 * s.frameSize.toNat - 120 - sc.codeWidth := by
      change _ = 8 * s.frameSize.toNat at hsize
      omega
    refine ⟨_, exec_segStart_of_positive (decodeTag_tag sc) fits positive, rfl, rfl, hr, rfl, hchunk, rfl, rfl, rfl, rfl,
      rfl, ?_, ?_⟩
    · refine Eq.trans ?_ hchunk
      exact BitVec.toNat_setWidth_of_le (by decide)
    · refine (Latches.cfgWord_toNat _).trans ?_
      rw [State.segStarted_latch, hr]
      rfl

end Sys2Proof.Machine
end

section
/-! The frames of a segmentation (44_segmenter.md R607 to R614): the fields and the code of an emitted frame, what
SEG.NEXT writes (O34), and that VALIDATE accepts what it emitted (O57). -/
namespace Sys2Proof

/-- A code just generated passes its check, whatever the scheme (41_crc.md R459, 42_checksum.md R507). -/
theorem Scheme.checkOk_append_generate (sc : Scheme) (body : Bits) : sc.checkOk (body ++ sc.generate body) = true := by
  unfold Scheme.checkOk Scheme.generate
  cases crc : sc.poly? with
  | none => exact freshChecksumValidates body
  | some g => exact freshCrcValidates body g (Scheme.poly?_head crc)

theorem eq_tag_of_decodeTag {tag : BitVec 7} {sc : Scheme} (h : decodeTag tag = .known sc) : tag = sc.tag := by
  obtain ⟨sc', rfl, known⟩ | ⟨-, unknown⟩ := decodeTag_cases tag
  · rw [TagValue.known.inj (known.symm.trans h)]
  · cases unknown.symm.trans h

end Sys2Proof

namespace Sys2Proof.Machine

section frame
variable {l : Latches} {sc : Scheme} {d : Bits} {last : Bool}

/-- An emitted frame is its header, a region of the chunk width and its code (30_encoding.md R322, R323). -/
theorem segFrame_eq (l : Latches) (sc : Scheme) (d : Bits) (last : Bool) :
    segFrame l sc d last =
      header l.srcIp l.srcPort l.dstIp l.dstPort (BitVec.ofNat 16 d.length) last l.tag
        ++ (d ++ zeros (l.chunk.toNat - d.length)) ++ sc.generate (frameBody l d last) := by
  simp only [segFrame, frameBody, List.append_assoc]

theorem segFrame_slices :
    slice (segFrame l sc d last) 96 112 = bitsOf 16 (BitVec.ofNat 16 d.length).toNat
    ∧ slice (segFrame l sc d last) 112 113 = [last] ∧ slice (segFrame l sc d last) 113 120 = bitsOf 7 l.tag.toNat := by
  obtain ⟨-, -, -, -, len, isLast, tag⟩ :=
    slice_header ((List.append_assoc _ _ _).symm.trans (segFrame_eq l sc d last).symm)
  exact ⟨len, isLast, tag⟩

theorem frameTag_segFrame (known : decodeTag l.tag = .known sc) : frameTag (segFrame l sc d last) = .known sc := by
  obtain ⟨-, -, tag⟩ := segFrame_slices (l := l) (sc := sc) (d := d) (last := last)
  exact frameTag_of_scheme (by rw [tag, val_bitsOf_toNat, eq_tag_of_decodeTag known])

variable (fits : d.length ≤ l.chunk.toNat)
include fits

theorem toNat_ofNat_length : (BitVec.ofNat 16 d.length).toNat = d.length :=
  Nat.mod_eq_of_lt (fits.trans_lt l.chunk.isLt)

/-- The length field of an emitted frame is the length of its data (44_segmenter.md R607). -/
theorem val_length_segFrame : val (slice (segFrame l sc d last) 96 112) = d.length := by
  obtain ⟨len, -⟩ := segFrame_slices (l := l) (sc := sc) (d := d) (last := last)
  rw [len, val_bitsOf_toNat, toNat_ofNat_length fits]

/-- The data of an emitted frame (43_header.md R563). -/
theorem frameData_segFrame : frameData (segFrame l sc d last) = d := by
  rw [frameData, val_length_segFrame fits, segFrame_eq, List.append_assoc, List.append_assoc,
    slice_append_right (length_header _ _ _ _ _ _ _).le, length_header, Nat.sub_self, Nat.add_sub_cancel_left,
    slice_append_left rfl]

/-- An emitted frame unpacks with a known tag and a length that fits its region (43_header.md R559, R562). -/
theorem unpack_segFrame (known : decodeTag l.tag = .known sc) :
    ∃ u, unpack (segFrame l sc d last) = some u ∧ u.known = true ∧ u.lenErr = false ∧ u.last = last := by
  have region : (d ++ zeros (l.chunk.toNat - d.length)).length = l.chunk.toNat := by
    rw [List.length_append, length_zeros, Nat.add_sub_cancel' fits]
  obtain ⟨u, unpacks, -, -, -, -, -, isLast, -, isKnown, -, lenErr, -⟩ :=
    unpackInvertsPacking l.srcIp l.dstIp l.srcPort l.dstPort (BitVec.ofNat 16 d.length) last sc _
      (sc.generate (frameBody l d last)) (length_generate _ _) (region ▸ l.chunk.isLt.le)
  rw [← eq_tag_of_decodeTag known, ← segFrame_eq] at unpacks
  refine ⟨u, unpacks, isKnown, ?_, isLast⟩
  rw [lenErr, region, toNat_ofNat_length fits, decide_eq_false (Nat.not_lt.2 fits)]

end frame

section emitted
variable {s : State} {sc : Scheme} {d : Bits}

/-- SEG.NEXT with an active segmentation, once the window's bits are read (44_segmenter.md R610). -/
theorem exec_segNext_of_written (active : s.status.segActive = true)
    (read : s.pay.readBits s.segPos.toNat s.windowLen = some d) (known : decodeTag s.latch.tag = .known sc) :
    exec .segNext s = .next (s.frameEmitted sc d) := by
  rw [exec, execSegNext, if_pos active, withBits_of_written (b := .pay) read, known]

theorem exec_segNext_of_idle (idle : s.status.segActive = false) :
    exec .segNext s = .next (s.raiseError false .sequence) := by
  rw [exec, execSegNext, if_neg (by simp [idle])]

variable (hlatch : s.latch.Consistent) (known : decodeTag s.latch.tag = .known sc) (window : d.length = s.windowLen)
include hlatch known window

theorem frameEmitted_txLen_toNat : (s.frameEmitted sc d).txLen.toNat = (s.nextFrame sc d).length := by
  have hsize := s.latch.fsize.isLt
  rw [State.frameEmitted_txLen, (length_nextFrame hlatch known window).1]
  exact Nat.mod_eq_of_lt (by omega)

theorem length_padToWord_nextFrame :
    (padToWord (s.nextFrame sc d)).length = (8 * s.latch.fsize.toNat + 31) / 32 * 32 := by
  rw [padToWord, List.length_append, length_zeros, (length_nextFrame hlatch known window).1]
  omega

/-- What stands in TX after SEG.NEXT, up to the whole word: the frame, then zeros (44_segmenter.md R610). -/
theorem bit?_frameEmitted {j : Nat} (h : j < (8 * s.latch.fsize.toNat + 31) / 32 * 32) :
    (s.frameEmitted sc d).tx.bit? j = (padToWord (s.nextFrame sc d))[j]? := by
  have words := length_padToWord_nextFrame hlatch known window
  rw [State.frameEmitted_tx, Memory.bit?_storeBits _ _ (by omega), if_pos (by omega)]

/-- Reading TX up to TX_LEN gives back the frame (44_segmenter.md R610). -/
theorem readBits_frameEmitted :
    (s.frameEmitted sc d).tx.readBits 0 (s.frameEmitted sc d).txLen.toNat = some (s.nextFrame sc d) := by
  obtain ⟨words, long, -⟩ := length_padToWord (s.nextFrame sc d)
  rw [frameEmitted_txLen_toNat hlatch known window, State.frameEmitted_tx,
    Memory.readBits_storeBits _ _ (by omega) long, padToWord, List.take_left]

end emitted

/-- VALIDATE of a frame that unpacks (45_validator.md R651). -/
theorem exec_validate_of_some {s : State} {f : Bits} {u : RxFields} (fits : s.rxbLen.toNat ≤ 65536)
    (read : s.rx.readBits 0 s.rxbLen.toNat = some f) (h : unpack f = some u) :
    exec .validate s = .next (s.validated f u) := by
  have least : leastFrameBits ≤ f.length := by
    by_contra short
    simp [unpack_eq_none_iff.2 (.inl (Nat.not_le.1 short))] at h
  rw [Memory.readBits_length read] at least
  refine (withOperand_of_written (b := .rx) fits least read).trans ?_
  rw [h]

/-- Settles O57: the emitted frame unpacks to the fields it was packed from, and its code was just generated. -/
theorem emittedFrameValidates : Obligations.EmittedFrameValidates := by
  unfold Obligations.EmittedFrameValidates
  intro s t u hinv active h len received
  obtain ⟨idle, -⟩ | ⟨-, d, sc, -, window, known, rfl⟩ := execSegNext_next h
  · simp [idle] at active
  have hlatch := hinv.latch_consistent active
  rw [readBits_frameEmitted hlatch known window] at received
  have fits : u.rxbLen.toNat ≤ 65536 := by
    have hsize := s.latch.fsize.isLt
    rw [len, frameEmitted_txLen_toNat hlatch known window, (length_nextFrame hlatch known window).1]
    omega
  obtain ⟨x, unpacks, isKnown, lenErr, isLast⟩ :=
    unpack_segFrame (last := s.windowLast) (window ▸ windowLen_le_chunk s) known
  have passes : u.validated (s.nextFrame sc d) x = (u.setRxf x).recordCheck sc (s.nextFrame sc d) := by
    rw [State.validated, State.nextFrame, frameTag_segFrame known]
  refine ⟨_, (exec_validate_of_some fits received unpacks).trans (congrArg _ passes), ?_, rfl, isKnown, lenErr, isLast⟩
  exact congrArg CheckResult.ofCheck (sc.checkOk_append_generate _)

/-- The state after SEG.NEXT, field by field, with no segmentation done before (44_segmenter.md R610). -/
theorem frameEmitted_eq {s : State} {sc : Scheme} {d : Bits} (hinv : s.Inv) (active : s.status.segActive = true)
    (known : decodeTag s.latch.tag = .known sc) (window : d.length = s.windowLen) :
    s.frameEmitted sc d = { s with
      tx := (s.frameEmitted sc d).tx
      txLen := BitVec.ofNat 32 (8 * s.latch.fsize.toNat)
      code := BitVec.ofNat 64 (val (sc.generate (frameBody s.latch d s.windowLast)))
      segPos := s.segPos + BitVec.ofNat 32 d.length
      segCount := s.segCount + 1
      status :=
        { s.status with segActive := !s.windowLast, segDone := s.windowLast, last := s.windowLast, err := .none } } := by
  obtain ⟨-, done, -⟩ := hinv.running active
  obtain ⟨-, width⟩ := length_nextFrame (hinv.latch_consistent active) known window
  have code : (s.nextFrame sc d).drop ((s.nextFrame sc d).length - s.latch.r.toNat)
      = sc.generate (frameBody s.latch d s.windowLast) := by
    rw [State.nextFrame, segFrame, List.length_append, length_generate, width, Nat.add_sub_cancel, List.drop_left]
  have pos : BitVec.ofNat 32 (s.segPos.toNat + s.windowLen) = s.segPos + BitVec.ofNat 32 d.length := by
    rw [BitVec.ofNat_add, BitVec.ofNat_toNat, BitVec.setWidth_eq, window]
  have flags : s.status.frameEmitted s.windowLast
      = { s.status with segActive := !s.windowLast, segDone := s.windowLast, last := s.windowLast, err := .none } := by
    rw [Status.frameEmitted, active, done, Bool.true_and, Bool.false_or]
  rw [← code, ← pos, ← flags]
  rfl

/-- Settles O34: the window read, the frame stands in TX with zeros up to the word and nothing changed above. -/
theorem segNextEmitsTheWindow : Obligations.SegNextEmitsTheWindow := by
  unfold Obligations.SegNextEmitsTheWindow
  refine ⟨decode_encode .segNext, fun s idle => exec_segNext_of_idle idle, fun s sc d hinv active tag read => ?_⟩
  have known : decodeTag s.latch.tag = .known sc := tag ▸ decodeTag_tag sc
  have window : d.length = s.windowLen := Memory.readBits_length read
  have hlatch := hinv.latch_consistent active
  have txLen := frameEmitted_txLen_toNat hlatch known window
  obtain ⟨size, -⟩ := length_nextFrame hlatch known window
  have words := length_padToWord_nextFrame hlatch known window
  refine ⟨_, frameBody s.latch d s.windowLast, s.windowLast, exec_segNext_of_written active read known, rfl, ?_,
    frameEmitted_eq hinv active known window, ?_, fun j low high => ?_, fun a high => ?_⟩
  · rw [frameBody, header, toNat_ofNat_length (window ▸ windowLen_le_chunk s), zeros]
  · rw [← size, ← txLen]
    exact readBits_frameEmitted hlatch known window
  · rw [bit?_frameEmitted hlatch known window high, padToWord, List.getElem?_append_right (by omega), zeros,
      List.getElem?_replicate_of_lt (by rw [padToWord, List.length_append, length_zeros] at words; omega)]
  · exact Memory.byte?_storeBits_of_outside _ _ (by omega)

end Sys2Proof.Machine
end

section
/-! The runs of SEG.NEXT (44_segmenter.md R604, R606, R612, R613): a segmentation emits its windows in order (O58), and
their data put together is the payload (O59). -/
namespace Sys2Proof

/-- Two adjacent slices from the start join. -/
theorem take_append_slice {p : Bits} {a b : Nat} (h : a ≤ b) : p.take a ++ slice p a (min b p.length) = p.take b := by
  have inside : (p.drop a).take (min b p.length - a) = (p.drop a).take (b - a) := by
    rw [List.take_eq_take_iff, List.length_drop]
    omega
  rw [slice, inside, ← List.take_add, Nat.add_sub_cancel' h]

end Sys2Proof

namespace Sys2Proof.Machine

/-- A slice of bits that are read is read. -/
theorem Memory.readBits_slice {m : Memory} {n a b : Nat} {p : Bits} (read : m.readBits 0 n = some p) (low : a ≤ b)
    (high : b ≤ n) : m.readBits a (b - a) = some (slice p a b) := by
  obtain ⟨length, bits⟩ := Memory.readBits_eq_some_iff.1 read
  refine Memory.readBits_eq_some_iff.2 ⟨by rw [length_slice]; omega, fun i hi => ?_⟩
  rw [slice, List.getElem?_take, if_pos hi, List.getElem?_drop, ← bits (a + i) (by omega), Nat.zero_add]

section windows
variable (l : Latches) (sc : Scheme) (p : Bits)

/-- Window `i` of the payload `p` (44_segmenter.md R604). -/
def Latches.window (i : Nat) : Bits := slice p (i * l.chunk.toNat) (min ((i + 1) * l.chunk.toNat) l.payLen.toNat)

/-- The frame of window `i`, the last one marked (44_segmenter.md R606, R607). -/
def Latches.windowFrame (i : Nat) : Bits := segFrame l sc (l.window p i) (decide (i + 1 = l.frameCount))

variable {l p}

theorem Latches.length_window (length : p.length = l.payLen.toNat) (i : Nat) :
    (l.window p i).length = min ((i + 1) * l.chunk.toNat) l.payLen.toNat - i * l.chunk.toNat := by
  rw [Latches.window, length_slice, length]
  omega

theorem Latches.length_window_le (i : Nat) : (l.window p i).length ≤ l.chunk.toNat := by
  rw [Latches.window, length_slice, Nat.succ_mul]
  omega

theorem Latches.frameData_windowFrame (i : Nat) : frameData (l.windowFrame sc p i) = l.window p i :=
  frameData_segFrame (Latches.length_window_le i)

theorem Latches.one_le_frameCount (l : Latches) : 1 ≤ l.frameCount := le_max_left 1 _

/-- The windows reach the end of the payload (44_segmenter.md R604). -/
theorem Latches.payLen_le_frameCount_mul (hchunk : 0 < l.chunk.toNat) :
    l.payLen.toNat ≤ l.frameCount * l.chunk.toNat := by
  have ceil : l.payLen.toNat ≤ l.chunk.toNat * ((l.payLen.toNat + l.chunk.toNat - 1) / l.chunk.toNat) :=
    le_smul_ceilDiv hchunk
  rw [Nat.mul_comm]
  exact ceil.trans (Nat.mul_le_mul_left _ (le_max_right _ _))

/-- The first windows, joined, are the front of the payload. -/
theorem Latches.flatten_windows (length : p.length = l.payLen.toNat) (n : Nat) :
    ((List.range n).map (l.window p)).flatten = p.take (n * l.chunk.toNat) := by
  induction n with
  | zero => simp
  | succ n ih =>
    rw [List.range_succ, List.map_append, List.flatten_append, ih, List.map_singleton, List.flatten_singleton,
      Latches.window, ← length, take_append_slice (Nat.mul_le_mul_right _ n.le_succ)]

end windows

/-- A segmentation of the payload `p` under the scheme `sc` is running, and the payload is written. -/
structure State.Segmenting (s : State) (sc : Scheme) (p : Bits) : Prop where
  running : s.SegRunning
  known : decodeTag s.latch.tag = .known sc
  payload : s.pay.readBits 0 s.latch.payLen.toNat = some p

section run
variable {s t u : State} {sc : Scheme} {p : Bits}

/-- The window that SEG.NEXT reads is the one SEG_COUNT numbers (44_segmenter.md R604). -/
theorem State.Segmenting.read_window (h : s.Segmenting sc p) :
    s.pay.readBits s.segPos.toNat s.windowLen = some (s.latch.window p s.segCount.toNat) := by
  have fits := h.running.window_fits
  obtain ⟨-, -, -, -, pos, -⟩ := h.running
  have next : (s.segCount.toNat + 1) * s.latch.chunk.toNat = s.segPos.toNat + s.latch.chunk.toNat := by
    rw [Nat.succ_mul, pos]
  have stop : s.windowLen = min (s.segPos.toNat + s.latch.chunk.toNat) s.latch.payLen.toNat - s.segPos.toNat := by
    unfold State.windowLen
    omega
  rw [stop, Latches.window, next, ← pos]
  exact Memory.readBits_slice h.payload (by omega) (min_le_right _ _)

/-- A window is the last one exactly when SEG_COUNT has reached the last of N (44_segmenter.md R606). -/
theorem State.SegRunning.windowLast_eq (h : s.SegRunning) :
    s.windowLast = decide (s.segCount.toNat + 1 = s.latch.frameCount) := by
  obtain ⟨-, -, -, hlatch, pos, low⟩ := h
  obtain ⟨-, -, -, -, hchunk, -⟩ := Latches.consistent_iff.1 hlatch
  rw [State.windowLast, pos]
  refine decide_eq_decide.2 ⟨fun reached => ?_, fun count => ?_⟩
  · refine (Latches.frameCount_eq hchunk ?_ reached).symm
    rw [← pos]
    exact low.imp_right fun ⟨hempty, hcount⟩ => ⟨by simp [hempty], by simp [hcount]⟩
  · rw [← Nat.succ_mul, Nat.succ_eq_add_one, count]
    exact Latches.payLen_le_frameCount_mul hchunk

/-- The state after one SEG.NEXT of a running segmentation. -/
def State.windowEmitted (s : State) (sc : Scheme) (p : Bits) : State :=
  s.frameEmitted sc (s.latch.window p s.segCount.toNat)

/-- One SEG.NEXT leaves the frame of its window in TX (44_segmenter.md R610). -/
theorem State.Segmenting.exec_segNext (h : s.Segmenting sc p) :
    exec .segNext s = .next (s.windowEmitted sc p)
    ∧ (s.windowEmitted sc p).tx.readBits 0 (s.windowEmitted sc p).txLen.toNat
        = some (s.latch.windowFrame sc p s.segCount.toNat) := by
  have read := h.read_window
  have last := h.running.windowLast_eq
  obtain ⟨active, -, -, hlatch, -⟩ := h.running
  refine ⟨exec_segNext_of_written active read h.known, ?_⟩
  rw [Latches.windowFrame, ← last]
  exact readBits_frameEmitted hlatch h.known (Memory.readBits_length read)

theorem emitFrames_succ {n : Nat} {f : Bits} {fs : List Bits} (h : exec .segNext s = .next t)
    (err : t.status.err = .none) (read : t.tx.readBits 0 t.txLen.toNat = some f)
    (rest : emitFrames n t = some (fs, u)) : emitFrames (n + 1) s = some (f :: fs, u) := by
  simp only [emitFrames, h, err, read, rest, if_true]

/-- From any of its windows on, a segmentation emits the frames that are left, in order, and is then finished
(44_segmenter.md R612). -/
theorem State.Segmenting.emitFrames_left {n : Nat} (h : s.Segmenting sc p)
    (left : s.segCount.toNat + (n + 1) = s.latch.frameCount) :
    ∃ u, emitFrames (n + 1) s
        = some ((List.range' s.segCount.toNat (n + 1)).map (s.latch.windowFrame sc p), u)
      ∧ u.SegFinished ∧ u.latch = s.latch := by
  induction n generalizing s with
  | zero =>
    obtain ⟨next, read⟩ := h.exec_segNext
    have last : s.windowLast = true := h.running.windowLast_eq.trans (decide_eq_true left)
    exact ⟨_, emitFrames_succ next rfl read rfl, h.running.frameEmitted_finished last sc _, rfl⟩
  | succ n ih =>
    obtain ⟨next, read⟩ := h.exec_segNext
    have more : s.windowLast = false := h.running.windowLast_eq.trans (decide_eq_false (by omega))
    have count : (s.windowEmitted sc p).segCount.toNat = s.segCount.toNat + 1 := h.running.next_segCount
    have rest : (s.windowEmitted sc p).Segmenting sc p :=
      ⟨h.running.frameEmitted_running more sc _, h.known, h.payload⟩
    have left : (s.windowEmitted sc p).segCount.toNat + (n + 1) = s.latch.frameCount := by omega
    obtain ⟨u, frames, finished, hlatch⟩ := ih rest left
    rw [count] at frames
    exact ⟨u, emitFrames_succ next rfl read frames, finished, hlatch⟩

/-- A successful SEG.START begins a segmentation of the payload (44_segmenter.md R605). -/
theorem segStart_segmenting {tag : BitVec 7} (h : exec (.segStart tag) s = .next t) (err : t.status.err = .none)
    (read : s.pay.readBits 0 s.payLen.toNat = some p) :
    ∃ sc, t.Segmenting sc p ∧ t.segCount = 0 ∧ t.latch.payLen = s.payLen ∧ t.latch.fsize = s.frameSize := by
  obtain ⟨e, rfl, he⟩ | ⟨sc, known, fits, positive, rfl⟩ := execSegStart_next h
  · obtain rfl : e = .none := err
    simp at he
  · refine ⟨sc, ⟨⟨rfl, rfl, rfl, latched_consistent known fits positive, (Nat.zero_mul _).symm, ?_⟩, known, read⟩, rfl,
      rfl, rfl⟩
    obtain hempty | hpos := Nat.eq_zero_or_pos s.payLen.toNat
    · exact .inr ⟨BitVec.eq_of_toNat_eq hempty, rfl⟩
    · exact .inl hpos

/-- After a successful SEG.START, N times SEG.NEXT emits the frames of the N windows (44_segmenter.md R612). -/
theorem emitFrames_of_segStart {tag : BitVec 7} (h : exec (.segStart tag) s = .next t) (err : t.status.err = .none)
    (read : s.pay.readBits 0 s.payLen.toNat = some p) :
    ∃ sc u, emitFrames t.latch.frameCount t
        = some ((List.range t.latch.frameCount).map (t.latch.windowFrame sc p), u)
      ∧ t.Segmenting sc p ∧ u.SegFinished ∧ u.latch = t.latch := by
  obtain ⟨sc, segmenting, count, -⟩ := segStart_segmenting h err read
  obtain ⟨n, hn⟩ := Nat.exists_eq_add_of_le' t.latch.one_le_frameCount
  obtain ⟨u, frames, finished, hlatch⟩ := segmenting.emitFrames_left (n := n) (by rw [count, hn]; simp)
  rw [count] at frames
  exact ⟨sc, u, by rw [hn, List.range_eq_range']; exact frames, segmenting, finished, hlatch⟩

end run

/-- Settles O58: the frames emitted are those of the windows, whose fields are read off each, and the segmentation is
then finished. -/
theorem segmentationEmitsItsWindows : Obligations.SegmentationEmitsItsWindows := by
  unfold Obligations.SegmentationEmitsItsWindows
  intro s t tag p P C N h err read hP hC hN
  obtain ⟨sc, u, frames, segmenting, finished, hlatch⟩ := emitFrames_of_segStart h err read
  obtain ⟨-, -, -, payLen, fsize⟩ := segStart_segmenting h err read
  obtain ⟨-, -, -, consistent, -⟩ := segmenting.running
  obtain ⟨sc', known, -, size, -⟩ := Latches.consistent_iff.1 consistent
  obtain rfl : sc' = sc := TagValue.known.inj (known.symm.trans segmenting.known)
  obtain ⟨active, done, -, -, -, count⟩ := finished
  rw [← payLen] at hP
  have hN : N = t.latch.frameCount := by rw [hN, hP, hC]; rfl
  subst hN hP hC
  refine ⟨_, u, frames, by simp, fun i f hf => ?_, done, active, hlatch ▸ count, exec_segNext_of_idle active⟩
  obtain ⟨-, rfl⟩ : i < t.latch.frameCount ∧ t.latch.windowFrame sc' p i = f := by
    simpa [List.getElem?_range, Option.map_eq_some_iff, List.getElem?_eq_some_iff] using hf
  have narrow := Latches.length_window_le (l := t.latch) (p := p) i
  obtain ⟨-, isLast, -⟩ := segFrame_slices (l := t.latch) (sc := sc') (d := t.latch.window p i)
    (last := decide (i + 1 = t.latch.frameCount))
  refine ⟨?_, ?_, Latches.frameData_windowFrame sc' i, isLast⟩
  · rw [← fsize, ← size]
    exact length_segFrame _ _ _ _ narrow
  · rw [← Latches.length_window (Memory.readBits_length segmenting.payload)]
    exact val_length_segFrame narrow

/-- Settles O59: the data of the frames are the windows, which join to the whole payload. -/
theorem segmentationLosesNoBit : Obligations.SegmentationLosesNoBit := by
  unfold Obligations.SegmentationLosesNoBit
  intro s t tag p h err read
  obtain ⟨sc, u, frames, segmenting, ⟨-, done, -⟩, -⟩ := emitFrames_of_segStart h err read
  obtain ⟨-, -, -, consistent, -⟩ := segmenting.running
  obtain ⟨-, -, -, -, hchunk, -⟩ := Latches.consistent_iff.1 consistent
  have length := Memory.readBits_length segmenting.payload
  refine ⟨_, u, frames, done, ?_⟩
  simp only [List.map_map, Function.comp_def, Latches.frameData_windowFrame]
  exact (Latches.flatten_windows length _).trans
    (List.take_of_length_le (length ▸ Latches.payLen_le_frameCount_mul hchunk))

end Sys2Proof.Machine
end

section
/-! The validator (45_validator.md R650 to R656): VALIDATE writes the RXF registers as HUNPACK and checks the whole
frame by its own tag (O35); a flipped bit (O53) or a short flipped run (O54) of a VALID CRC frame, outside the tag
field, is detected. -/
namespace Sys2Proof

/-! ## Errors as polynomials over GF(2) -/

section undivided
open Polynomial

theorem gf2Poly_xorBits {s t : Bits} (h : s.length = t.length) :
    gf2Poly (xorBits s t) = gf2Poly s + gf2Poly t := by
  induction s generalizing t with
  | nil =>
    obtain rfl := List.eq_nil_of_length_eq_zero h.symm
    exact (zero_add 0).symm
  | cons a s ih =>
    match t, h with
    | b :: t, h =>
      have rest : s.length = t.length := Nat.succ.inj h
      have bit : (C (if a ^^ b then 1 else 0) : (ZMod 2)[X]) = C (if a then 1 else 0) + C (if b then 1 else 0) := by
        rw [← C_add]
        exact congrArg C (by simpa using coeff_xor_and a true b)
      rw [xorBits_cons, gf2Poly_cons, gf2Poly_cons, gf2Poly_cons, ih rest, length_xorBits, rest, min_self, bit]
      ring

variable {g : Bits} (lead : g.head? = some true)
include lead

/-- A polynomial that divides a power of X is itself one, with a single 1 bit (45_validator.md R654). -/
theorem not_gf2Poly_dvd_X_pow (ones : 2 ≤ g.count true) (k : Nat) : ¬ gf2Poly g ∣ X ^ k := by
  obtain ⟨low, rfl⟩ := exists_of_leading_one lead
  intro divides
  obtain ⟨j, -, associated⟩ := (dvd_prime_pow prime_X k).1 divides
  have power : gf2Poly (true :: low) = X ^ j :=
    eq_of_monic_of_associated (monic_gf2Poly low) (monic_X_pow j) associated
  have degree : low.length = j := by
    have := degree_gf2Poly low
    rw [power, degree_X_pow] at this
    exact_mod_cast this.symm
  have lower : gf2Poly low = 0 := by
    rw [gf2Poly_leading_one, degree] at power
    exact add_eq_left.1 power
  rw [(gf2Poly_eq_zero_iff low).1 lower] at ones
  simp [zeros, List.count_replicate] at ones

/-- A polynomial whose last bit is 1 divides no shifted run of at most R ones: it is coprime to X, and the run has a
lower degree (45_validator.md R655). -/
theorem not_gf2Poly_dvd_burst (last : g.getLast? = some true) {b : Nat} (pos : 1 ≤ b) (short : b ≤ g.length - 1)
    (k : Nat) : ¬ gf2Poly g ∣ gf2Poly (List.replicate b true) * X ^ k := by
  have coprime : IsCoprime (gf2Poly g) X := by
    obtain ⟨high, rfl⟩ := List.getLast?_eq_some_iff.1 last
    exact ⟨1, -gf2Poly high, by rw [gf2Poly_append]; simp [gf2Poly_leading_one]⟩
  obtain ⟨low, rfl⟩ := exists_of_leading_one lead
  have nonzero : gf2Poly (List.replicate b true) ≠ 0 := by
    obtain ⟨n, rfl⟩ := Nat.exists_eq_add_of_le' pos
    exact (monic_gf2Poly (List.replicate n true)).ne_zero
  have lower : (gf2Poly (List.replicate b true)).degree < (gf2Poly (true :: low)).degree := by
    refine (degree_gf2Poly_lt _).trans_le ?_
    rw [degree_gf2Poly, List.length_replicate]
    exact_mod_cast short
  exact fun divides =>
    (monic_gf2Poly low).not_dvd_of_degree_lt nonzero lower (coprime.pow_right.dvd_of_dvd_mul_right divides)

end undivided

/-! ## The check of a CRC scheme -/

section crc
variable {sc : Scheme} {g : Bits} (crc : sc.poly? = some g) {f : Bits}
include crc

theorem Scheme.codeWidth_of_poly : sc.codeWidth = g.length - 1 := by rw [Scheme.codeWidth, crc]

variable (long : sc.codeWidth ≤ f.length)
include long

theorem Scheme.checkOk_iff_crcRem : sc.checkOk f = true ↔ crcRem f g = zeros (g.length - 1) := by
  rw [Scheme.codeWidth_of_poly crc] at long
  rw [Scheme.checkOk, crc, crcOk_iff_crcRem, length_crcRem long]

theorem Scheme.checkOk_iff_dvd : sc.checkOk f = true ↔ gf2Poly g ∣ gf2Poly f := by
  rw [Scheme.codeWidth_of_poly crc] at long
  rw [Scheme.checkOk, crc]
  exact crcOk_iff_dvd (Scheme.poly?_head crc) long

end crc

end Sys2Proof

namespace Sys2Proof.Machine

/-! ## A frame with a flipped run -/

section flip
variable {f : Bits} {i b : Nat}

@[simp] theorem length_flipRun (f : Bits) (i b : Nat) : (flipRun f i b).length = f.length := by
  simp [flipRun]
  omega

/-- The polynomial of a frame with a flipped run: the run's is added (45_validator.md R654, R655). -/
theorem gf2Poly_flipRun (inside : i + b ≤ f.length) :
    gf2Poly (flipRun f i b)
      = gf2Poly f + gf2Poly (List.replicate b true) * Polynomial.X ^ (f.length - i - b) := by
  have length : f.length = (zeros i ++ List.replicate b true ++ zeros (f.length - i - b)).length := by
    simp
    omega
  rw [flipRun, gf2Poly_xorBits length, gf2Poly_append, gf2Poly_append, gf2Poly_zeros, gf2Poly_zeros, zero_mul, zero_add,
    add_zero, length_zeros]

/-- The bits before and after the run are kept. -/
theorem getElem?_flipRun {j : Nat} (outside : j < i ∨ i + b ≤ j) : (flipRun f i b)[j]? = f[j]? := by
  obtain beyond | inside := le_or_gt f.length j
  · rw [List.getElem?_eq_none beyond, List.getElem?_eq_none ((length_flipRun f i b).le.trans beyond)]
  have mask : (zeros i ++ List.replicate b true ++ zeros (f.length - i - b))[j]? = some false := by
    rw [List.append_assoc]
    obtain before | after := outside
    · rw [List.getElem?_append_left (by simpa using before), zeros, List.getElem?_replicate_of_lt before]
    · rw [List.getElem?_append_right (by simp; omega), List.getElem?_append_right (by simp; omega), zeros,
        List.getElem?_replicate_of_lt (by simp; omega)]
  rw [flipRun, xorBits, List.getElem?_zipWith, mask, List.getElem?_eq_getElem inside]
  simp

theorem frameTag_flipRun (outside : i + b ≤ 113 ∨ 120 ≤ i) : frameTag (flipRun f i b) = frameTag f := by
  have tag : slice (flipRun f i b) 113 120 = slice f 113 120 := by
    refine List.ext_getElem? fun j => ?_
    rw [slice, slice, List.getElem?_take, List.getElem?_take]
    split
    · rw [List.getElem?_drop, List.getElem?_drop, getElem?_flipRun (by omega)]
    · rfl
  rw [frameTag, tag, frameTag]

theorem unpack_flipRun_eq_none_iff (outside : i + b ≤ 113 ∨ 120 ≤ i) :
    unpack (flipRun f i b) = none ↔ unpack f = none := by
  rw [unpack_eq_none_iff, unpack_eq_none_iff, length_flipRun, frameTag_flipRun outside]

end flip

/-! ## VALIDATE -/

section validate
variable {s t : State} {f : Bits} {sc : Scheme} {u : RxFields}

theorem validated_of_unknown {raw : BitVec 7} (h : frameTag f = .unknown raw) :
    s.validated f u = (s.setRxf u).setStatus (s.status.checked .undetermined) := by
  rw [State.validated, h]

theorem validated_of_known (h : frameTag f = .known sc) : s.validated f u = (s.setRxf u).recordCheck sc f := by
  rw [State.validated, h]

/-- What a checksum check records (42_checksum.md R511, 45_validator.md R652). -/
theorem recordCheck_checksum (s : State) (f : Bits) :
    s.recordCheck .checksum f = { s with
      code := BitVec.ofNat 64 (csumGen (slice f 0 (f.length - 16))).toNat
      status :=
        { s.status with
          result :=
            if (csumGen (slice f 0 (f.length - 16))).toNat = val (slice f (f.length - 16) f.length)
            then .valid else .invalid
          err := .none } } := by
  have result : CheckResult.ofCheck (Scheme.checksum.checkOk f)
      = if (csumGen (slice f 0 (f.length - 16))).toNat = val (f.drop (f.length - 16)) then .valid else .invalid :=
    if_congr beq_iff_eq rfl rfl
  rw [slice_to_length, State.recordCheck, result]
  rfl

/-- What a CRC check records (41_crc.md R466, 45_validator.md R651). -/
theorem recordCheck_crc {g : Bits} (crc : sc.poly? = some g) (long : sc.codeWidth ≤ f.length) (s : State) :
    s.recordCheck sc f = { s with
      code := BitVec.ofNat 64 (val (crcRem f g))
      status :=
        { s.status with
          result := if crcRem f g = List.replicate (g.length - 1) false then .valid else .invalid
          err := .none } } := by
  have code : sc.checkCode f = val (crcRem f g) := by rw [Scheme.checkCode, crc]
  have result : CheckResult.ofCheck (sc.checkOk f)
      = if crcRem f g = zeros (g.length - 1) then .valid else .invalid :=
    if_congr (Scheme.checkOk_iff_crcRem crc long) rfl rfl
  rw [State.recordCheck, code, result]
  rfl

/-- A VALID outcome is that of a frame which unpacks and passes its check (45_validator.md R651). -/
theorem exec_validate_valid (h : exec .validate s = .next t) (valid : t.status.result = .valid)
    (err : t.status.err = .none) (read : s.rx.readBits 0 s.rxbLen.toNat = some f) (known : frameTag f = .known sc) :
    s.rxbLen.toNat ≤ 65536 ∧ (∃ u, unpack f = some u) ∧ sc.checkOk f = true := by
  obtain ⟨-, rfl⟩ | ⟨-, rfl, -⟩ | ⟨fits, f', u, read', unpacks, rfl⟩ := execValidate_next h
  · cases err
  · cases err
  · obtain rfl : f = f' := Option.some.inj (read.symm.trans read')
    refine ⟨fits, ⟨u, unpacks⟩, ?_⟩
    rw [validated_of_known known] at valid
    change CheckResult.ofCheck (sc.checkOk f) = .valid at valid
    cases passes : sc.checkOk f with
    | true => rfl
    | false => simp [passes, CheckResult.ofCheck] at valid

variable (fits : s.rxbLen.toNat ≤ 65536) (read : s.rx.readBits 0 s.rxbLen.toNat = some f)
include fits read

/-- VALIDATE of a frame that does not unpack (45_validator.md R651). -/
theorem exec_validate_of_none (h : unpack f = none) : exec .validate s = .next (s.raiseError true .truncatedFrame) := by
  by_cases short : s.rxbLen.toNat < leastFrameBits
  · exact withOperand_of_short (b := .rx) fits short
  · refine (withOperand_of_written (b := .rx) fits (Nat.not_lt.1 short) read).trans ?_
    rw [h]

variable (least : 128 ≤ f.length)
include least

theorem exec_hunpack_completes : ∃ u, exec .hunpack s = .next u := by
  cases unpacks : unpack f with
  | none => exact ⟨_, exec_hunpack_of_none fits read unpacks⟩
  | some x => exact ⟨_, exec_hunpack_of_some fits read least unpacks⟩

/-- VALIDATE of a frame long enough for its tag: the fields are those HUNPACK writes (45_validator.md R651). -/
theorem exec_validate_of_hunpack (hunpack : exec .hunpack s = .next t)
    (long : 120 + (frameTag f).codeWidth ≤ f.length) : exec .validate s = .next (s.validated f t.rxf) := by
  obtain ⟨u, unpacks⟩ : ∃ u, unpack f = some u := ⟨_, (unpack_eq least).trans (if_neg (Nat.not_lt.2 long))⟩
  have fields : (s.setRxf u).succeed = t :=
    Host.Outcome.next.inj ((exec_hunpack_of_some fits read least unpacks).symm.trans hunpack)
  rw [← fields]
  exact exec_validate_of_some fits read unpacks

end validate

/-- Settles O35: VALIDATE answers what unpacking the frame does, with the fields HUNPACK writes, and records the check
of the frame's own tag. -/
theorem validateChecksTheWholeFrame : Obligations.ValidateChecksTheWholeFrame := by
  unfold Obligations.ValidateChecksTheWholeFrame
  refine ⟨decode_encode .validate, fun s long => withOperand_of_long (b := .rx) long, fun s f fits read =>
    ⟨fun truncated => exec_validate_of_none fits read (unpack_eq_none_iff.2 ?_), fun least => ?_⟩⟩
  · exact truncated.imp_right fun ⟨sc, tag, short⟩ => ⟨sc, frameTag_of_scheme tag, short⟩
  obtain ⟨u, hunpack⟩ := exec_hunpack_completes fits read least
  have validate := exec_validate_of_hunpack fits read least hunpack
  refine ⟨u, hunpack, fun tag => ?_, fun tag long => ?_, fun sc g tag crc long => ?_⟩
  · obtain ⟨raw, unknown⟩ := frameTag_of_unknown tag
    rw [validate (by rw [unknown, TagValue.codeWidth_unknown]; omega), validated_of_unknown unknown]
    rfl
  · have known : frameTag f = .known .checksum := frameTag_of_scheme tag.symm
    rw [validate (by rw [known]; exact long), validated_of_known known, recordCheck_checksum]
    rfl
  · have known : frameTag f = .known sc := frameTag_of_scheme tag
    rw [← Scheme.codeWidth_of_poly crc] at long
    rw [validate (by rw [known]; exact long), validated_of_known known, recordCheck_crc crc (by omega)]
    rfl

/-! ## Detected errors -/

/-- A run flipped outside the tag field leaves the scheme and the length of the frame, so a run whose polynomial the
scheme's does not divide makes a VALID frame INVALID (45_validator.md R654, R655). -/
theorem exec_validate_flipRun_invalid {s s' t : State} {f g : Bits} {sc : Scheme} {i b : Nat}
    (read : s.rx.readBits 0 s.rxbLen.toNat = some f) (known : frameTag f = .known sc) (crc : sc.poly? = some g)
    (h : exec .validate s = .next t) (valid : t.status.result = .valid) (err : t.status.err = .none)
    (inside : i + b ≤ f.length) (outside : i + b ≤ 113 ∨ 120 ≤ i) (len : s'.rxbLen = s.rxbLen)
    (flipped : s'.rx.readBits 0 s.rxbLen.toNat = some (flipRun f i b))
    (undivided : ¬ gf2Poly g ∣ gf2Poly (List.replicate b true) * Polynomial.X ^ (f.length - i - b)) :
    ∃ t', exec .validate s' = .next t' ∧ t'.status.result = .invalid := by
  obtain ⟨fits, ⟨u, unpacks⟩, passes⟩ := exec_validate_valid h valid err read known
  obtain ⟨u', unpacks'⟩ : ∃ u', unpack (flipRun f i b) = some u' :=
    Option.ne_none_iff_exists'.1 (mt (unpack_flipRun_eq_none_iff outside).1 (by simp [unpacks]))
  have known' : frameTag (flipRun f i b) = .known sc := (frameTag_flipRun outside).trans known
  have fails : sc.checkOk (flipRun f i b) = false := by
    have divides := (Scheme.checkOk_iff_dvd crc (codeWidth_le_of_unpack unpacks known)).1 passes
    rw [← Bool.not_eq_true, Scheme.checkOk_iff_dvd crc (codeWidth_le_of_unpack unpacks' known'),
      gf2Poly_flipRun inside, dvd_add_right divides]
    exact undivided
  rw [← len] at fits flipped
  refine ⟨_, exec_validate_of_some fits flipped unpacks', ?_⟩
  rw [validated_of_known known', State.recordCheck_status, fails]
  rfl

/-- Settles O53: one flipped bit adds a power of X, which no polynomial with two 1 bits divides. -/
theorem singleBitFlipIsDetected : Obligations.SingleBitFlipIsDetected := by
  unfold Obligations.SingleBitFlipIsDetected
  refine ⟨by decide, fun s s' t f g sc i read known crc ones h valid err inside outside len flipped => ?_⟩
  refine exec_validate_flipRun_invalid read known crc h valid err inside outside len flipped ?_
  have one : gf2Poly (List.replicate 1 true) = 1 := by simp [gf2Poly_leading_one]
  rw [one, one_mul]
  exact not_gf2Poly_dvd_X_pow (Scheme.poly?_head crc) ones _

/-- Settles O54: a short flipped run adds a run of too low a degree, shifted, and a polynomial whose last bit is 1 is
coprime to the shift. -/
theorem burstIsDetected : Obligations.BurstIsDetected := by
  unfold Obligations.BurstIsDetected
  refine ⟨by decide,
    fun s s' t f g sc i b read known crc last h valid err pos short inside outside len flipped => ?_⟩
  rw [Scheme.codeWidth_of_poly crc] at short
  exact exec_validate_flipRun_invalid read known crc h valid err inside outside len flipped
    (not_gf2Poly_dvd_burst (Scheme.poly?_head crc) last pos short _)

end Sys2Proof.Machine
end

section
/-! The errors the unpacker raises, in order, for both of its commands (60_exceptions.md R705, O32), and the idle block
(60_exceptions.md R725, O3). -/
namespace Sys2Proof.Machine

/-- Settles O32: both commands run the same length checks on RX, and raise the same error for a frame that does not
unpack. -/
theorem unpackErrorsInOrder : Obligations.UnpackErrorsInOrder := by
  unfold Obligations.UnpackErrorsInOrder
  intro i isCheck listed s
  have command : (i = .hunpack ∧ isCheck = false) ∨ (i = .validate ∧ isCheck = true) := by simpa using listed
  refine ⟨fun long => ?_, fun short => ?_, fun f sc _ fits read tag short => ?_⟩
  · obtain ⟨rfl, rfl⟩ | ⟨rfl, rfl⟩ := command <;> exact withOperand_of_long (b := .rx) long
  · have fits : s.rxbLen.toNat ≤ capBits .rx := short.le.trans (by decide)
    obtain ⟨rfl, rfl⟩ | ⟨rfl, rfl⟩ := command <;> exact withOperand_of_short (b := .rx) fits short
  · have truncated : unpack f = none := unpack_eq_none_iff.2 (.inr ⟨sc, frameTag_of_scheme tag, short⟩)
    obtain ⟨rfl, rfl⟩ | ⟨rfl, rfl⟩ := command
    · exact exec_hunpack_of_none fits read truncated
    · exact exec_validate_of_none fits read truncated

/-- With nothing pending a step serves no event (60_exceptions.md R725). -/
theorem step_of_idle {s : State} (idle : s.pending = []) : step s = .next s := by
  rw [step, idle]

/-- Settles O3: a step serves nothing but the oldest pending event. -/
theorem idleHoldsAllState : Obligations.IdleHoldsAllState := fun _ => step_of_idle

end Sys2Proof.Machine
end

section
/-! Reset (70_reset_and_hazards.md R800, R801, R803: O1, O2, O4), and the hazards between the segmentation under way and
the registers it latched, and between the results and the commands that do not write them (R810, R812, R813: O43,
O38). -/
namespace Sys2Proof.Machine

section reset
variable {r : Reg}

/-- Every register but the port BUF_DATA reads 0 after reset (70_reset_and_hazards.md R800). -/
theorem readReg_reset (hr : r ≠ .bufData) : State.reset.readReg r = 0 := by
  cases r with
  | bufData => exact absurd rfl hr
  | _ => rfl

theorem buf_reset (b : Buffer) : State.reset.buf b = [] := by cases b <;> rfl

/-- Every written mark is cleared (70_reset_and_hazards.md R801). -/
theorem bit?_buf_reset (b : Buffer) (j : Nat) : (State.reset.buf b).bit? j = none := by rw [buf_reset]; rfl

/-- The events still pending and the count of resets, in which a platform reset differs from `State.reset`, show in no
register. -/
theorem readReg_platformReset (s : State) (hr : r ≠ .bufData) : s.platformReset.readReg r = State.reset.readReg r := by
  cases r with
  | bufData => exact absurd rfl hr
  | _ => rfl

theorem buf_platformReset (s : State) (b : Buffer) : s.platformReset.buf b = State.reset.buf b := by cases b <;> rfl

/-- The step that serves a platform reset. -/
theorem step_of_reset {s : State} {rest : List BusEvent} (h : s.pending = .reset :: rest) :
    step s = .next ({ s with pending := rest } : State).platformReset := step_of_event h

end reset

/-- Settles O1: the latches are 0 by definition, the registers and the marks by what a read and a buffer are after reset. -/
theorem resetClearsRegistersAndMarks : Obligations.ResetClearsRegistersAndMarks :=
  ⟨fun _ hr => readReg_reset hr, rfl, bit?_buf_reset⟩

/-- Settles O4: reset is the base case of the invariant that O6 says every step keeps. -/
theorem resetSatisfiesInvariant : Obligations.ResetSatisfiesInvariant := State.Inv.reset

/-- Settles O2: the step that serves the reset leaves the registers and buffers of `State.reset`. -/
theorem platformResetRestoresResetState : Obligations.PlatformResetRestoresResetState := by
  unfold Obligations.PlatformResetRestoresResetState
  intro s rest h
  refine ⟨_, step_of_reset h, fun r hr => ?_, rfl, fun b j => ?_, rfl, rfl⟩
  · rw [readReg_platformReset _ hr, readReg_reset hr]
  · rw [buf_platformReset, bit?_buf_reset]

section writers
variable {s : State} {i : Instr} {w : Writes}

/-- Only HPACK and SEG.NEXT write TX and TX_LEN (10_state.md R126). -/
theorem WritesOf.tx_eq_none (h : WritesOf s i w) (hpack : ∀ tag, i ≠ .hpack tag) (segNext : i ≠ .segNext) :
    w.tx = none := by
  cases h with
  | hpack tag => exact absurd rfl (hpack tag)
  | segNext => exact absurd rfl segNext
  | _ => rfl

/-- NOP, CLR, HPACK, HUNPACK and SEG.START write no code (10_state.md R115). -/
theorem WritesOf.code_eq_none (h : WritesOf s i w)
    (hi : i ∈ [.nop, .clr, .hunpack] ∨ ∃ tag, i = .hpack tag ∨ i = .segStart tag) : w.code = none := by
  cases h with
  | gen sc => cases sc <;> simp [genInstr] at hi
  | @chk sc => cases sc <;> simp [chkInstr] at hi
  | validated | segNext => simp at hi
  | _ => rfl

/-- Only HUNPACK and VALIDATE write the RXF registers (70_reset_and_hazards.md R813). -/
theorem WritesOf.rxf_eq_none (h : WritesOf s i w) (hunpack : i ≠ .hunpack) (validate : i ≠ .validate) :
    w.rxf = none := by
  cases h with
  | hunpack => exact absurd rfl hunpack
  | undetermined | validated => exact absurd rfl validate
  | _ => rfl

/-- Only SEG.START writes the latches (10_state.md R120). -/
theorem WritesOf.latch_eq_none (h : WritesOf s i w) (segStart : ∀ tag, i ≠ .segStart tag) : w.latch = none := by
  cases h with
  | segStart => exact absurd rfl (segStart _)
  | _ => rfl

/-- Only SEG.START and SEG.NEXT write the cursor and the flags of the segmentation (10_state.md R114). -/
theorem WritesOf.cursor_eq_none (h : WritesOf s i w) (segStart : ∀ tag, i ≠ .segStart tag) (segNext : i ≠ .segNext) :
    w.segPos = none ∧ w.segCount = none ∧ w.segActive = none ∧ w.segDone = none ∧ w.last = none := by
  cases h with
  | segStart => exact absurd rfl (segStart _)
  | segNext => exact absurd rfl segNext
  | _ => exact ⟨rfl, rfl, rfl, rfl, rfl⟩

/-- Only CLR and the checks write RESULT, the checks also by an error (10_state.md R113, 60_exceptions.md R703). -/
theorem WritesOf.result_eq_none (h : WritesOf s i w) (clr : i ≠ .clr) (check : i.isCheck = false) :
    w.result = none := by
  cases h with
  | error => simp [Writes.error, check]
  | clr => exact absurd rfl clr
  | @chk sc => cases sc <;> cases check
  | undetermined | validated => cases check
  | _ => rfl

/-- Every check stands in the list of RESULT's writers (10_state.md R113). -/
theorem isCheck_eq_false_of_notMem
    (hi : i ∉ [.clr, .chkCsum, .chkCrc8, .chkCrc10, .chkCrc16, .chkCrc32, .validate]) : i.isCheck = false := by
  cases i <;> simp [Instr.isCheck] at hi ⊢

end writers

/-- Settles O38: a field that the command's write gives no value stays. -/
theorem resultsHaveTheirOwnWriters : Obligations.ResultsHaveTheirOwnWriters := by
  unfold Obligations.ResultsHaveTheirOwnWriters
  intro i s t h
  obtain ⟨w, hw, rfl⟩ := exec_next h
  refine ⟨fun hpack segNext => ?_, fun hi => ?_, fun hunpack validate => ?_, fun segStart => ?_,
    fun segStart segNext => ?_, fun hi => ?_⟩
  · simp [Writes.apply, hw.tx_eq_none hpack segNext]
  · simp [Writes.apply, hw.code_eq_none hi]
  · simp [Writes.apply, hw.rxf_eq_none hunpack validate]
  · simp [Writes.apply, hw.latch_eq_none segStart]
  · obtain ⟨pos, count, active, done, last⟩ := hw.cursor_eq_none segStart segNext
    simp [Writes.apply, Writes.flags, pos, count, active, done, last]
  · have clr : i ≠ .clr := by rintro rfl; simp at hi
    simp [Writes.apply, Writes.flags, hw.result_eq_none clr (isCheck_eq_false_of_notMem hi)]

/-- The registers SEG.START latches are none of SEG.NEXT's inputs (70_reset_and_hazards.md R810). -/
theorem State.SameInputs.of_latched_registers (s : State) (frameSize : BitVec 13) (srcIp dstIp : Word)
    (srcPort dstPort : BitVec 16) (payLen : Word) :
    s.SameInputs
      { s with
        frameSize := frameSize, srcIp := srcIp, srcPort := srcPort, dstIp := dstIp, dstPort := dstPort
        payLen := payLen } .segNext :=
  ⟨rfl, rfl, rfl, rfl, fun _ => rfl⟩

/-- Settles O43: SEG.NEXT has the same inputs, so the same write, which reaches none of the registers changed. -/
theorem latchedRegistersDoNotReachTheSegmentation : Obligations.LatchedRegistersDoNotReachTheSegmentation := by
  unfold Obligations.LatchedRegistersDoNotReachTheSegmentation
  intro s t fs a b p q n h
  obtain ⟨w, -, rfl, same⟩ := exec_writes h
  exact same _ (.of_latched_registers s fs a b p q n)

end Sys2Proof.Machine
end
